-- ==== Sys2Proof/Word.lean ====
section
/-! DEFINITION. The words of the machine and its two base architectures (00_scope.md R6 to R8, 10_state.md R20). -/

namespace Sys2Proof

/-- Eight bits: a byte of instruction memory, an S-box entry. -/
abbrev Byte := BitVec 8

/-- Thirty-two bits: an instruction word (R60), a register value on RV32. -/
abbrev Word32 := BitVec 32

/-- Sixty-four bits: a register value on RV64, and the cell that holds a register on either base. -/
abbrev Word64 := BitVec 64

/-- A 5-bit register address, as it stands in the fields `rd`, `rs1`, `rs2` (10_state.md R20). -/
abbrev RegIdx := BitVec 5

/-- A 12-bit CSR number (30_encoding.md R81). -/
abbrev CsrNum := BitVec 12

/-- The base architecture, "an additional implicit bit in the encoding" (00_scope.md R6). -/
inductive Base where
  | rv32
  | rv64
deriving DecidableEq, Repr

/-- `XLEN`, the width of an integer register (00_scope.md R5, decision D1). -/
def Base.xlen : Base → Nat
  | .rv32 => 32
  | .rv64 => 64

/-- The base architecture that is not this one. -/
def Base.other : Base → Base
  | .rv32 => .rv64
  | .rv64 => .rv32

end Sys2Proof
end

