-- ==== Sys2Proof/Config.lean ====
section
/-! DEFINITION. The implementation parameters of 00_scope.md R5: the encoding parameters and the other defaults the
spec's decisions give, the OPEN parameters as opaque constants, and the values the model names for reset. -/

namespace Sys2Proof.Config

/-! ### Encoding parameters (00_scope.md R5; decisions D2 to D11, log entry 9) -/

/-- `P_OP`, the major opcode `OP` (D2). -/
def opOp : BitVec 7 := 0b0110011#7
/-- `P_OPIMM`, the major opcode `OP-IMM` (D2). -/
def opOpImm : BitVec 7 := 0b0010011#7
/-- `F3_OP` (30_encoding.md R62). -/
def f3Op : BitVec 3 := 0b000#3
/-- `F3_OPIMM`, the source's literal value (30_encoding.md R62, conflict C4, D4). -/
def f3OpImm : BitVec 3 := 0b000#3

/-- func7 of the single-operand hash instructions (30_encoding.md R65). -/
def f7Hash : BitVec 7 := 0b0001000#7
/-- func7 of `aes64ks1i` and `aes64im` (30_encoding.md R73, conflict C2). -/
def f7AesImm : BitVec 7 := 0b0011000#7

/-! Selectors of the single-operand instructions, bits 24:20 (30_encoding.md R66, R67, R73; D5, D11). -/
def selSha256sum0 : BitVec 5 := 0b00000#5
def selSha256sum1 : BitVec 5 := 0b00001#5
def selSha256sig0 : BitVec 5 := 0b00010#5
def selSha256sig1 : BitVec 5 := 0b00011#5
def selSha512sum0 : BitVec 5 := 0b00100#5
def selSha512sum1 : BitVec 5 := 0b00101#5
def selSha512sig0 : BitVec 5 := 0b00110#5
def selSha512sig1 : BitVec 5 := 0b00111#5
def selSm3p0 : BitVec 5 := 0b01000#5
def selSm3p1 : BitVec 5 := 0b01001#5
def selAes64im : BitVec 5 := 0b00000#5
/-- Bit 24 of `aes64ks1i`, above its `rnum` field (30_encoding.md R72, R73; D11). -/
def ks1iTag : BitVec 1 := 0b1#1

/-! Bits 29:25 of the SM4 and RV32 AES instructions, below their `bs` field (30_encoding.md R70; D7, D8). -/
def f5Sm4ed : BitVec 5 := 0b11000#5
def f5Sm4ks : BitVec 5 := 0b11010#5
def f5Aes32esmi : BitVec 5 := 0b11011#5
def f5Aes32esi : BitVec 5 := 0b11001#5
def f5Aes32dsmi : BitVec 5 := 0b11111#5
def f5Aes32dsi : BitVec 5 := 0b11101#5

/-! func7 of the RV32 SHA-512 instructions (30_encoding.md R68; D6). -/
def f7Sha512sum0r : BitVec 7 := 0b0101000#7
def f7Sha512sum1r : BitVec 7 := 0b0101001#7
def f7Sha512sig0l : BitVec 7 := 0b0101010#7
def f7Sha512sig0h : BitVec 7 := 0b0101110#7
def f7Sha512sig1l : BitVec 7 := 0b0101011#7
def f7Sha512sig1h : BitVec 7 := 0b0101111#7

/-! func7 of the two-source RV64 AES instructions (30_encoding.md R71, R73; D9, D10). -/
def f7Aes64ks2 : BitVec 7 := 0b0111001#7
def f7Aes64esm : BitVec 7 := 0b0011011#7
def f7Aes64es : BitVec 7 := 0b0011001#7
def f7Aes64dsm : BitVec 7 := 0b0011111#7
def f7Aes64ds : BitVec 7 := 0b0011101#7

/-- `RNUM_MAX`, the largest legal `rnum` of `aes64ks1i` (D14). -/
def rnumMax : BitVec 4 := 0xA#4

/-! ### The pseudo-ops' CSR read (30_encoding.md R81, 40_entropy_pseudo_ops.md R100, R101; D12) -/

/-- Bits 19:12 of the base ISA's CSR read-and-set with source `x0`: `rs1 = 00000`, `func3 = 010` (log entry 8). -/
def csrReadMid : BitVec 8 := 0b00000010#8
/-- The major opcode of the base ISA's CSR instructions (log entry 8). -/
def opSystem : BitVec 7 := 0b1110011#7

/-- `CSR_POLLENTROPY`, OPEN: no value is given and none can be proved (D12, log entry 7). -/
opaque csrPollentropy : CsrNum

/-- How far `CSR_GETNOISE` lies above `CSR_POLLENTROPY`, less one: the two numbers differ (R101) and nothing else is
known of them (log entry 7). -/
opaque csrGetnoiseGap : Fin 4095

/-- `CSR_GETNOISE`, OPEN but different from `CSR_POLLENTROPY` (R101, D12, log entry 7). -/
def csrGetnoise : CsrNum := csrPollentropy + BitVec.ofNat 12 (csrGetnoiseGap.val + 1)

/-- `ENTROPY_READ`, the free value of the `n`-th CSR read: `draw(XLEN)` of 00_scope.md R8 (D12, log entry 6). On RV32
its low 32 bits are the value read. -/
opaque entropyRead : Nat → Word64

/-- The free value of `aes_rcon(r)` for `r > 10`, where the spec leaves it undefined (48_crypto_tables.md R197, log
entry 13). -/
opaque rconBeyond : BitVec 4 → BitVec 8

/-! ### Exceptions and reset -/

/-- `ILLEGAL_CAUSE`, the cause recorded for the Illegal Opcode Exception (60_exceptions.md R200; D15). -/
def illegalCause : Nat := 2

/-- The base of the reset state: the spec models both and names no default (DESIGN CHOICE, log entry 1). -/
def resetBase : Base := .rv64

/-- `RESET_PC` of the reset state: the spec leaves it OPEN, a multiple of 4 (DESIGN CHOICE, log entry 4). -/
def resetPc : Word64 := 0x1000#64

end Sys2Proof.Config
end

