-- ==== Sys2Proof/Syntax.lean ====
section
/-! DEFINITION. The instructions: one constructor per row of `opcode_table.json`, with the fields its encoding has
(30_encoding.md R74, R81). The operand order is the assembler's, R80. -/

namespace Sys2Proof

inductive Instr where
  /-- 41_sm4.md R110 -/
  | sm4ed (rd rs1 rs2 : RegIdx) (bs : BitVec 2)
  /-- 41_sm4.md R111 -/
  | sm4ks (rd rs1 rs2 : RegIdx) (bs : BitVec 2)
  /-- 42_sm3.md R120 -/
  | sm3p0 (rd rs1 : RegIdx)
  /-- 42_sm3.md R121 -/
  | sm3p1 (rd rs1 : RegIdx)
  /-- 43_sha256.md R130 -/
  | sha256sum0 (rd rs1 : RegIdx)
  /-- 43_sha256.md R131 -/
  | sha256sum1 (rd rs1 : RegIdx)
  /-- 43_sha256.md R132 -/
  | sha256sig0 (rd rs1 : RegIdx)
  /-- 43_sha256.md R133 -/
  | sha256sig1 (rd rs1 : RegIdx)
  /-- 44_aes32.md R140 -/
  | aes32esmi (rd rs1 rs2 : RegIdx) (bs : BitVec 2)
  /-- 44_aes32.md R141 -/
  | aes32esi (rd rs1 rs2 : RegIdx) (bs : BitVec 2)
  /-- 44_aes32.md R142 -/
  | aes32dsmi (rd rs1 rs2 : RegIdx) (bs : BitVec 2)
  /-- 44_aes32.md R143 -/
  | aes32dsi (rd rs1 rs2 : RegIdx) (bs : BitVec 2)
  /-- 45_sha512_rv32.md R150 -/
  | sha512sum0r (rd rs1 rs2 : RegIdx)
  /-- 45_sha512_rv32.md R151 -/
  | sha512sum1r (rd rs1 rs2 : RegIdx)
  /-- 45_sha512_rv32.md R152 -/
  | sha512sig0l (rd rs1 rs2 : RegIdx)
  /-- 45_sha512_rv32.md R153 -/
  | sha512sig0h (rd rs1 rs2 : RegIdx)
  /-- 45_sha512_rv32.md R154 -/
  | sha512sig1l (rd rs1 rs2 : RegIdx)
  /-- 45_sha512_rv32.md R155 -/
  | sha512sig1h (rd rs1 rs2 : RegIdx)
  /-- 46_aes64.md R160 -/
  | aes64ks1i (rd rs1 : RegIdx) (rnum : BitVec 4)
  /-- 46_aes64.md R161 -/
  | aes64ks2 (rd rs1 rs2 : RegIdx)
  /-- 46_aes64.md R162 -/
  | aes64im (rd rs1 : RegIdx)
  /-- 46_aes64.md R163 -/
  | aes64esm (rd rs1 rs2 : RegIdx)
  /-- 46_aes64.md R164 -/
  | aes64es (rd rs1 rs2 : RegIdx)
  /-- 46_aes64.md R165 -/
  | aes64dsm (rd rs1 rs2 : RegIdx)
  /-- 46_aes64.md R166 -/
  | aes64ds (rd rs1 rs2 : RegIdx)
  /-- 47_sha512_rv64.md R180 -/
  | sha512sum0 (rd rs1 : RegIdx)
  /-- 47_sha512_rv64.md R181 -/
  | sha512sum1 (rd rs1 : RegIdx)
  /-- 47_sha512_rv64.md R182 -/
  | sha512sig0 (rd rs1 : RegIdx)
  /-- 47_sha512_rv64.md R183 -/
  | sha512sig1 (rd rs1 : RegIdx)
  /-- 40_entropy_pseudo_ops.md R100 -/
  | pollentropy (rd : RegIdx)
  /-- 40_entropy_pseudo_ops.md R101 -/
  | getnoise (rd : RegIdx)
deriving DecidableEq, Repr

end Sys2Proof
end

