-- ==== Sys2Proof/WellFormed.lean ====
section
/-! DEFINITION. Which instructions exist: on which base (00_scope.md R2, R6) and with which field values
(30_encoding.md R76, 46_aes64.md R160). -/

namespace Sys2Proof

/-- The instruction is one of the base's (00_scope.md R2; the "base" column of 30_encoding.md R74). -/
def Instr.onBase (b : Base) : Instr → Bool
  | .sm4ed _ _ _ _ | .sm4ks _ _ _ _ => true
  | .sm3p0 _ _ | .sm3p1 _ _ => true
  | .sha256sum0 _ _ | .sha256sum1 _ _ | .sha256sig0 _ _ | .sha256sig1 _ _ => true
  | .aes32esmi _ _ _ _ | .aes32esi _ _ _ _ | .aes32dsmi _ _ _ _ | .aes32dsi _ _ _ _ => b == .rv32
  | .sha512sum0r _ _ _ | .sha512sum1r _ _ _ => b == .rv32
  | .sha512sig0l _ _ _ | .sha512sig0h _ _ _ | .sha512sig1l _ _ _ | .sha512sig1h _ _ _ => b == .rv32
  | .aes64ks1i _ _ _ | .aes64ks2 _ _ _ | .aes64im _ _ => b == .rv64
  | .aes64esm _ _ _ | .aes64es _ _ _ | .aes64dsm _ _ _ | .aes64ds _ _ _ => b == .rv64
  | .sha512sum0 _ _ | .sha512sum1 _ _ | .sha512sig0 _ _ | .sha512sig1 _ _ => b == .rv64
  | .pollentropy _ | .getnoise _ => true

/-- The field values the encoding admits: `rs1 = rd` for the SM4 and RV32 AES instructions (30_encoding.md R76),
`rnum` at most `RNUM_MAX` for `aes64ks1i` (R75 step 5). No other instruction constrains its fields (R64). -/
def Instr.fieldsLegal : Instr → Bool
  | .sm4ed rd rs1 _ _ | .sm4ks rd rs1 _ _ => rs1 == rd
  | .aes32esmi rd rs1 _ _ | .aes32esi rd rs1 _ _ | .aes32dsmi rd rs1 _ _ | .aes32dsi rd rs1 _ _ => rs1 == rd
  | .aes64ks1i _ _ rnum => decide (rnum ≤ Config.rnumMax)
  | .sm3p0 _ _ | .sm3p1 _ _ => true
  | .sha256sum0 _ _ | .sha256sum1 _ _ | .sha256sig0 _ _ | .sha256sig1 _ _ => true
  | .sha512sum0r _ _ _ | .sha512sum1r _ _ _ => true
  | .sha512sig0l _ _ _ | .sha512sig0h _ _ _ | .sha512sig1l _ _ _ | .sha512sig1h _ _ _ => true
  | .aes64ks2 _ _ _ | .aes64im _ _ => true
  | .aes64esm _ _ _ | .aes64es _ _ _ | .aes64dsm _ _ _ | .aes64ds _ _ _ => true
  | .sha512sum0 _ _ | .sha512sum1 _ _ | .sha512sig0 _ _ | .sha512sig1 _ _ => true
  | .pollentropy _ | .getnoise _ => true

/-- A legal instruction of the base. -/
def Instr.wellFormed (b : Base) (i : Instr) : Bool :=
  i.onBase b && i.fieldsLegal

/-- The destination register: every instruction has exactly one (10_state.md R20). -/
def Instr.rd : Instr → RegIdx
  | .sm4ed rd _ _ _ | .sm4ks rd _ _ _ => rd
  | .sm3p0 rd _ | .sm3p1 rd _ => rd
  | .sha256sum0 rd _ | .sha256sum1 rd _ | .sha256sig0 rd _ | .sha256sig1 rd _ => rd
  | .aes32esmi rd _ _ _ | .aes32esi rd _ _ _ | .aes32dsmi rd _ _ _ | .aes32dsi rd _ _ _ => rd
  | .sha512sum0r rd _ _ | .sha512sum1r rd _ _ => rd
  | .sha512sig0l rd _ _ | .sha512sig0h rd _ _ | .sha512sig1l rd _ _ | .sha512sig1h rd _ _ => rd
  | .aes64ks1i rd _ _ | .aes64ks2 rd _ _ | .aes64im rd _ => rd
  | .aes64esm rd _ _ | .aes64es rd _ _ | .aes64dsm rd _ _ | .aes64ds rd _ _ => rd
  | .sha512sum0 rd _ | .sha512sum1 rd _ | .sha512sig0 rd _ | .sha512sig1 rd _ => rd
  | .pollentropy rd | .getnoise rd => rd

/-- The source registers the instruction names (30_encoding.md R63; none for the pseudo-ops, R100, R101). -/
def Instr.sources : Instr → List RegIdx
  | .sm4ed _ rs1 rs2 _ | .sm4ks _ rs1 rs2 _ => [rs1, rs2]
  | .sm3p0 _ rs1 | .sm3p1 _ rs1 => [rs1]
  | .sha256sum0 _ rs1 | .sha256sum1 _ rs1 | .sha256sig0 _ rs1 | .sha256sig1 _ rs1 => [rs1]
  | .aes32esmi _ rs1 rs2 _ | .aes32esi _ rs1 rs2 _ | .aes32dsmi _ rs1 rs2 _ | .aes32dsi _ rs1 rs2 _ => [rs1, rs2]
  | .sha512sum0r _ rs1 rs2 | .sha512sum1r _ rs1 rs2 => [rs1, rs2]
  | .sha512sig0l _ rs1 rs2 | .sha512sig0h _ rs1 rs2 | .sha512sig1l _ rs1 rs2 | .sha512sig1h _ rs1 rs2 => [rs1, rs2]
  | .aes64ks1i _ rs1 _ | .aes64im _ rs1 => [rs1]
  | .aes64ks2 _ rs1 rs2 => [rs1, rs2]
  | .aes64esm _ rs1 rs2 | .aes64es _ rs1 rs2 | .aes64dsm _ rs1 rs2 | .aes64ds _ rs1 rs2 => [rs1, rs2]
  | .sha512sum0 _ rs1 | .sha512sum1 _ rs1 | .sha512sig0 _ rs1 | .sha512sig1 _ rs1 => [rs1]
  | .pollentropy _ | .getnoise _ => []

/-- The two pseudo-ops, which read a CSR and no register (30_encoding.md R81). -/
def Instr.isCsrRead : Instr → Bool
  | .pollentropy _ | .getnoise _ => true
  | .sm4ed _ _ _ _ | .sm4ks _ _ _ _ | .sm3p0 _ _ | .sm3p1 _ _ => false
  | .sha256sum0 _ _ | .sha256sum1 _ _ | .sha256sig0 _ _ | .sha256sig1 _ _ => false
  | .aes32esmi _ _ _ _ | .aes32esi _ _ _ _ | .aes32dsmi _ _ _ _ | .aes32dsi _ _ _ _ => false
  | .sha512sum0r _ _ _ | .sha512sum1r _ _ _ => false
  | .sha512sig0l _ _ _ | .sha512sig0h _ _ _ | .sha512sig1l _ _ _ | .sha512sig1h _ _ _ => false
  | .aes64ks1i _ _ _ | .aes64ks2 _ _ _ | .aes64im _ _ => false
  | .aes64esm _ _ _ | .aes64es _ _ _ | .aes64dsm _ _ _ | .aes64ds _ _ _ => false
  | .sha512sum0 _ _ | .sha512sum1 _ _ | .sha512sig0 _ _ | .sha512sig1 _ _ => false

end Sys2Proof
end

