-- ==== Sys2Proof/Decode.lean ====
section
/-! DEFINITION. The opcode map (30_encoding.md R74), the total decoder (R75), and the encoder written from the
patterns of the same map. -/

namespace Sys2Proof

/-! ### The fields of a word (30_encoding.md R61, R72, R81) -/

def rdOf (w : Word32) : RegIdx := w.extractLsb' 7 5
def rs1Of (w : Word32) : RegIdx := w.extractLsb' 15 5
def rs2Of (w : Word32) : RegIdx := w.extractLsb' 20 5
def bsOf (w : Word32) : BitVec 2 := w.extractLsb' 30 2
def rnumOf (w : Word32) : BitVec 4 := w.extractLsb' 20 4
def csrOf (w : Word32) : CsrNum := w.extractLsb' 20 12

/-! ### The four instruction formats and the CSR read, most significant field first -/

/-- `bb fffff ttttt sssss 000 ddddd 0110011`: two sources and a byte select, in `OP`. -/
def wordRbs (bs : BitVec 2) (f5 : BitVec 5) (rs2 rs1 rd : RegIdx) : Word32 :=
  bs ++ f5 ++ rs2 ++ rs1 ++ Config.f3Op ++ rd ++ Config.opOp

/-- `fffffff ttttt sssss 000 ddddd 0110011`: two sources, in `OP`. -/
def wordR (f7 : BitVec 7) (rs2 rs1 rd : RegIdx) : Word32 :=
  f7 ++ rs2 ++ rs1 ++ Config.f3Op ++ rd ++ Config.opOp

/-- `fffffff eeeee sssss 000 ddddd 0010011`: one source and a selector, in `OP-IMM`. -/
def wordI (f7 : BitVec 7) (sel : BitVec 5) (rs1 rd : RegIdx) : Word32 :=
  f7 ++ sel ++ rs1 ++ Config.f3OpImm ++ rd ++ Config.opOpImm

/-- `0011000 1nnnn sssss 000 ddddd 0010011`: `aes64ks1i`. -/
def wordKs1i (rnum : BitVec 4) (rs1 rd : RegIdx) : Word32 :=
  Config.f7AesImm ++ Config.ks1iTag ++ rnum ++ rs1 ++ Config.f3OpImm ++ rd ++ Config.opOpImm

/-- `cccccccccccc 00000 010 ddddd 1110011`: a CSR read (30_encoding.md R81). -/
def wordCsrRead (csr : CsrNum) (rd : RegIdx) : Word32 :=
  csr ++ Config.csrReadMid ++ rd ++ Config.opSystem

/-! ### The opcode map -/

/-- One row of 30_encoding.md R74: a word has the row's fixed bits iff `w &&& mask = patt`. -/
structure Row where
  /-- the bases the row exists on -/
  bases : List Base
  patt : Word32
  mask : Word32
  /-- the instruction with the fields of a word that has the fixed bits -/
  make : Word32 → Instr

def Row.rbs (bases : List Base) (f5 : BitVec 5) (mk : RegIdx → RegIdx → RegIdx → BitVec 2 → Instr) : Row where
  bases := bases
  patt := wordRbs 0#2 f5 0#5 0#5 0#5
  mask := 0#2 ++ 0b11111#5 ++ 0#5 ++ 0#5 ++ 0b111#3 ++ 0#5 ++ 0b1111111#7
  make w := mk (rdOf w) (rs1Of w) (rs2Of w) (bsOf w)

def Row.r (bases : List Base) (f7 : BitVec 7) (mk : RegIdx → RegIdx → RegIdx → Instr) : Row where
  bases := bases
  patt := wordR f7 0#5 0#5 0#5
  mask := 0b1111111#7 ++ 0#5 ++ 0#5 ++ 0b111#3 ++ 0#5 ++ 0b1111111#7
  make w := mk (rdOf w) (rs1Of w) (rs2Of w)

def Row.i (bases : List Base) (f7 : BitVec 7) (sel : BitVec 5) (mk : RegIdx → RegIdx → Instr) : Row where
  bases := bases
  patt := wordI f7 sel 0#5 0#5
  mask := 0b1111111#7 ++ 0b11111#5 ++ 0#5 ++ 0b111#3 ++ 0#5 ++ 0b1111111#7
  make w := mk (rdOf w) (rs1Of w)

def Row.ks1i : Row where
  bases := [.rv64]
  patt := wordKs1i 0#4 0#5 0#5
  mask := 0b1111111#7 ++ 0b1#1 ++ 0#4 ++ 0#5 ++ 0b111#3 ++ 0#5 ++ 0b1111111#7
  make w := .aes64ks1i (rdOf w) (rs1Of w) (rnumOf w)

def rowsBoth : List Row :=
  [ .rbs [.rv32, .rv64] Config.f5Sm4ed .sm4ed,
    .rbs [.rv32, .rv64] Config.f5Sm4ks .sm4ks,
    .i [.rv32, .rv64] Config.f7Hash Config.selSm3p0 .sm3p0,
    .i [.rv32, .rv64] Config.f7Hash Config.selSm3p1 .sm3p1,
    .i [.rv32, .rv64] Config.f7Hash Config.selSha256sum0 .sha256sum0,
    .i [.rv32, .rv64] Config.f7Hash Config.selSha256sum1 .sha256sum1,
    .i [.rv32, .rv64] Config.f7Hash Config.selSha256sig0 .sha256sig0,
    .i [.rv32, .rv64] Config.f7Hash Config.selSha256sig1 .sha256sig1 ]

def rowsRv32 : List Row :=
  [ .rbs [.rv32] Config.f5Aes32esmi .aes32esmi,
    .rbs [.rv32] Config.f5Aes32esi .aes32esi,
    .rbs [.rv32] Config.f5Aes32dsmi .aes32dsmi,
    .rbs [.rv32] Config.f5Aes32dsi .aes32dsi,
    .r [.rv32] Config.f7Sha512sum0r .sha512sum0r,
    .r [.rv32] Config.f7Sha512sum1r .sha512sum1r,
    .r [.rv32] Config.f7Sha512sig0l .sha512sig0l,
    .r [.rv32] Config.f7Sha512sig0h .sha512sig0h,
    .r [.rv32] Config.f7Sha512sig1l .sha512sig1l,
    .r [.rv32] Config.f7Sha512sig1h .sha512sig1h ]

def rowsRv64 : List Row :=
  [ .ks1i,
    .r [.rv64] Config.f7Aes64ks2 .aes64ks2,
    .i [.rv64] Config.f7AesImm Config.selAes64im .aes64im,
    .r [.rv64] Config.f7Aes64esm .aes64esm,
    .r [.rv64] Config.f7Aes64es .aes64es,
    .r [.rv64] Config.f7Aes64dsm .aes64dsm,
    .r [.rv64] Config.f7Aes64ds .aes64ds,
    .i [.rv64] Config.f7Hash Config.selSha512sum0 .sha512sum0,
    .i [.rv64] Config.f7Hash Config.selSha512sum1 .sha512sum1,
    .i [.rv64] Config.f7Hash Config.selSha512sig0 .sha512sig0,
    .i [.rv64] Config.f7Hash Config.selSha512sig1 .sha512sig1 ]

/-- The opcode map (30_encoding.md R74), in the table's order. -/
def opcodeMap : List Row := rowsBoth ++ rowsRv32 ++ rowsRv64

/-- The word has the row's fixed bits (30_encoding.md R74). -/
def Row.fits (r : Row) (w : Word32) : Bool := w &&& r.mask == r.patt

/-! ### The decoder -/

/-- The three outcomes of 30_encoding.md R75. -/
inductive Decoded where
  /-- a legal instruction of the base -/
  | insn (i : Instr)
  /-- a row's fixed bits with field values the row forbids -/
  | illegalOpcode
  /-- no row of the base and no CSR read of the two pseudo-ops -/
  | notScalarCrypto
deriving DecidableEq, Repr

/-- The two rows R81 says a model adds for the pseudo-ops: a CSR read of one of the two OPEN numbers. -/
def decodeCsrRead (w : Word32) : Decoded :=
  if w.extractLsb' 0 7 = Config.opSystem then
    if w.extractLsb' 12 8 = Config.csrReadMid then
      if csrOf w = Config.csrPollentropy then .insn (.pollentropy (rdOf w))
      else if csrOf w = Config.csrGetnoise then .insn (.getnoise (rdOf w))
      else .notScalarCrypto
    else .notScalarCrypto
  else .notScalarCrypto

/-- The total decoder of 30_encoding.md R75, with the two CSR reads of R81 tried where no row matches. -/
def decode (b : Base) (w : Word32) : Decoded :=
  match opcodeMap.find? (fun r => r.bases.contains b && r.fits w) with
  | some r => if (r.make w).fieldsLegal then .insn (r.make w) else .illegalOpcode
  | none => decodeCsrRead w

/-- `OTHER_DECODE`, the hook for the words this extension rejects (60_exceptions.md R202, D16): its default, "none". -/
def otherDecode (_ : Base) (_ : Word32) : Option Instr := none

/-- The instruction a word stands for in a model of the extension alone: `illegalOpcode` and `notScalarCrypto` words
go to `OTHER_DECODE`, and where that has no instruction they are illegal (30_encoding.md R75, R202; D16). -/
def resolve (b : Base) (w : Word32) : Option Instr :=
  match decode b w with
  | .insn i => some i
  | .illegalOpcode => otherDecode b w
  | .notScalarCrypto => otherDecode b w

/-! ### Bytes (20_memory.md R43) -/

/-- The word of four bytes, the byte at the lowest address holding bits 7:0. -/
def wordOfBytes (b0 b1 b2 b3 : Byte) : Word32 := b3 ++ b2 ++ b1 ++ b0

/-- The four bytes of a word, lowest address first. -/
def bytesOfWord (w : Word32) : List Byte :=
  [w.extractLsb' 0 8, w.extractLsb' 8 8, w.extractLsb' 16 8, w.extractLsb' 24 8]

/-- Decodes the instruction at the head of a byte sequence and returns the bytes after it; `none` where fewer than the
four bytes of an instruction (30_encoding.md R79) are there. -/
def decodeBytes (b : Base) : List Byte → Option (Decoded × List Byte)
  | b0 :: b1 :: b2 :: b3 :: rest => some (decode b (wordOfBytes b0 b1 b2 b3), rest)
  | _ => none

/-! ### The encoder -/

/-- The word of an instruction, from the patterns of 30_encoding.md R74 and R81. It places whatever the fields hold,
so that an ill-formed instruction has the word the decoder rejects. -/
def encode : Instr → Word32
  | .sm4ed rd rs1 rs2 bs => wordRbs bs Config.f5Sm4ed rs2 rs1 rd
  | .sm4ks rd rs1 rs2 bs => wordRbs bs Config.f5Sm4ks rs2 rs1 rd
  | .sm3p0 rd rs1 => wordI Config.f7Hash Config.selSm3p0 rs1 rd
  | .sm3p1 rd rs1 => wordI Config.f7Hash Config.selSm3p1 rs1 rd
  | .sha256sum0 rd rs1 => wordI Config.f7Hash Config.selSha256sum0 rs1 rd
  | .sha256sum1 rd rs1 => wordI Config.f7Hash Config.selSha256sum1 rs1 rd
  | .sha256sig0 rd rs1 => wordI Config.f7Hash Config.selSha256sig0 rs1 rd
  | .sha256sig1 rd rs1 => wordI Config.f7Hash Config.selSha256sig1 rs1 rd
  | .aes32esmi rd rs1 rs2 bs => wordRbs bs Config.f5Aes32esmi rs2 rs1 rd
  | .aes32esi rd rs1 rs2 bs => wordRbs bs Config.f5Aes32esi rs2 rs1 rd
  | .aes32dsmi rd rs1 rs2 bs => wordRbs bs Config.f5Aes32dsmi rs2 rs1 rd
  | .aes32dsi rd rs1 rs2 bs => wordRbs bs Config.f5Aes32dsi rs2 rs1 rd
  | .sha512sum0r rd rs1 rs2 => wordR Config.f7Sha512sum0r rs2 rs1 rd
  | .sha512sum1r rd rs1 rs2 => wordR Config.f7Sha512sum1r rs2 rs1 rd
  | .sha512sig0l rd rs1 rs2 => wordR Config.f7Sha512sig0l rs2 rs1 rd
  | .sha512sig0h rd rs1 rs2 => wordR Config.f7Sha512sig0h rs2 rs1 rd
  | .sha512sig1l rd rs1 rs2 => wordR Config.f7Sha512sig1l rs2 rs1 rd
  | .sha512sig1h rd rs1 rs2 => wordR Config.f7Sha512sig1h rs2 rs1 rd
  | .aes64ks1i rd rs1 rnum => wordKs1i rnum rs1 rd
  | .aes64ks2 rd rs1 rs2 => wordR Config.f7Aes64ks2 rs2 rs1 rd
  | .aes64im rd rs1 => wordI Config.f7AesImm Config.selAes64im rs1 rd
  | .aes64esm rd rs1 rs2 => wordR Config.f7Aes64esm rs2 rs1 rd
  | .aes64es rd rs1 rs2 => wordR Config.f7Aes64es rs2 rs1 rd
  | .aes64dsm rd rs1 rs2 => wordR Config.f7Aes64dsm rs2 rs1 rd
  | .aes64ds rd rs1 rs2 => wordR Config.f7Aes64ds rs2 rs1 rd
  | .sha512sum0 rd rs1 => wordI Config.f7Hash Config.selSha512sum0 rs1 rd
  | .sha512sum1 rd rs1 => wordI Config.f7Hash Config.selSha512sum1 rs1 rd
  | .sha512sig0 rd rs1 => wordI Config.f7Hash Config.selSha512sig0 rs1 rd
  | .sha512sig1 rd rs1 => wordI Config.f7Hash Config.selSha512sig1 rs1 rd
  | .pollentropy rd => wordCsrRead Config.csrPollentropy rd
  | .getnoise rd => wordCsrRead Config.csrGetnoise rd

/-! ### A word of the opcode table, without its base

The table's rows of the two bases overlap (30_encoding.md R71): a word says which instruction it is only together with
the base. Where only the word is given, the base asked for first keeps it if the word is one of its instructions, else
the other base is taken if it is one of that base's (log entry 1). -/

/-- The base on which a word is read, preferring `b`. -/
def baseFor (b : Base) (w : Word32) : Base :=
  match decode b w with
  | .insn _ => b
  | .illegalOpcode | .notScalarCrypto =>
    match decode b.other w with
    | .insn _ => b.other
    | .illegalOpcode | .notScalarCrypto => b

/-- The instruction word whose bits are `w`, the bits from `nbits` up being 0. -/
def tableWord (nbits w : Nat) : Word32 := BitVec.ofNat 32 (w % 2 ^ nbits)

/-- What the decoder reads from the bytes of a table word, on the reset base or else on the other. -/
def decodeTableWord (nbits w : Nat) : Option Instr :=
  match decodeBytes (baseFor Config.resetBase (tableWord nbits w)) (bytesOfWord (tableWord nbits w)) with
  | some (.insn i, _) => some i
  | _ => none

end Sys2Proof
end

