-- ==== Sys2Proof/Machine/State.lean ====
section
/-! DEFINITION. The machine's state (10_state.md section 2), the reasons a step can stop, and the state after reset
(10_state.md R29, 70_reset_and_hazards.md R230). -/

namespace Sys2Proof.Machine

/-- The triple of a non-empty fault record (60_exceptions.md R204). -/
structure FaultRecord where
  /-- the cause code -/
  cause : Nat
  /-- the `pc` of the faulting instruction -/
  epc : Word64
  /-- the faulting instruction word -/
  tval : Word32
deriving DecidableEq, Repr

/-- The state of the hart. A register and the `pc` stand in 64-bit cells, of which RV32 uses the low 32 bits: the
accessors of Machine/Ops.lean give them their XLEN-bit value (log entry 2). -/
structure State where
  /-- `XLEN` (00_scope.md R6): fixed for a whole run -/
  base : Base
  /-- `x[1]` to `x[31]` (10_state.md R20); the cell of `x[r]` is at index `r - 1`, and `x[0]` has none (R21) -/
  x : Vector Word64 31
  /-- the program counter (10_state.md R22) -/
  pc : Word64
  /-- the fault record (60_exceptions.md R204) -/
  fault : Option FaultRecord
  /-- the instruction memory (20_memory.md R42): the bytes it is defined on, by rising address; immutable in a run -/
  mem : List Host.Cell
  /-- the model's own: how many CSR reads have drawn a value (10_state.md R28, log entry 6) -/
  draws : Nat
deriving DecidableEq, Repr

/-- Why a machine has no further step (70_reset_and_hazards.md R232). -/
inductive Fault where
  /-- Raised by `step` on a state whose fault record is not empty: the run has ended (60_exceptions.md R204). Safe: the
  model stops where a real core would enter a handler that no source describes. -/
  | runEnded
  /-- Raised by `step` where `pc` is not a multiple of 4: the model is stuck (20_memory.md R42). Safe: nothing can be
  proved of what a real core does there. -/
  | misalignedFetch
  /-- Raised by `step` where the instruction memory is not defined at `pc`: the model is stuck (20_memory.md R42).
  Safe, as above. -/
  | unmappedFetch
deriving DecidableEq, Repr

/-- The instructions without a meaning. -/
inductive Refusal where
  /-- Would be raised by `exec` on an instruction the model gives no meaning. Safe. No arm of `exec` raises it: every
  instruction of the opcode table has its meaning. -/
  | notModelled (mnemonic : String)
deriving DecidableEq, Repr

/-- The initial state of a run for every choice the spec leaves to the platform (70_reset_and_hazards.md R230, R231):
the base, `RESET_PC`, the launch values of `x[1..31]` and the instruction memory. The fault record is empty. -/
def State.launch (base : Base) (resetPc : Word64) (x : Vector Word64 31) (mem : List Host.Cell) : State where
  base := base
  x := x
  pc := resetPc
  fault := none
  mem := mem
  draws := 0

/-- The state after reset with the values the model names: the base of log entry 1, `RESET_PC` of log entry 4,
`x[1..31] = 0` of log entry 3 and an instruction memory in which the platform has placed nothing (log entry 5). -/
def State.reset : State :=
  State.launch Config.resetBase Config.resetPc (Vector.replicate 31 0#64) []

end Sys2Proof.Machine
end

