-- ==== Sys2Proof/Machine/Ops.lean ====
section
/-! DEFINITION. The named operations over memory, registers, the `pc`, the draws and the fault record. -/

namespace Sys2Proof.Machine

/-! ### Values of XLEN bits in 64-bit cells (log entry 2) -/

/-- The XLEN-bit value of a cell: on RV32 its low 32 bits, with zeros above. -/
def fitXlen (b : Base) (v : Word64) : Word64 :=
  match b with
  | .rv32 => (v.setWidth 32).setWidth 64
  | .rv64 => v

/-- `sext_XLEN` of a 32-bit value (00_scope.md R8): the identity on RV32, the sign extension to 64 bits on RV64. -/
def sextXlen (b : Base) (z : Word32) : Word64 :=
  match b with
  | .rv32 => z.setWidth 64
  | .rv64 => z.signExtend 64

/-! ### Registers (10_state.md R20 to R23) -/

/-- The place of `x[r]` among the cells of `x[1..31]`. -/
theorem regSlot_lt (r : RegIdx) : r.toNat - 1 < 31 := by
  have h : r.toNat < 32 := r.isLt
  omega

/-- `x[r]` (00_scope.md R8): an XLEN-bit value; `x[0]` reads zero (10_state.md R21). -/
def State.readX (s : State) (r : RegIdx) : Word64 :=
  if r = 0#5 then 0#64 else fitXlen s.base (s.x[r.toNat - 1]'(regSlot_lt r))

/-- `x[r] <- v` (00_scope.md R8); a write to `x[0]` is discarded (10_state.md R21). -/
def State.writeX (s : State) (r : RegIdx) (v : Word64) : State :=
  if r = 0#5 then s else { s with x := s.x.set (r.toNat - 1) (fitXlen s.base v) (regSlot_lt r) }

/-- The program counter, an XLEN-bit value (10_state.md R22). -/
def State.readPc (s : State) : Word64 := fitXlen s.base s.pc

/-- `pc + 4`, modulo `2^XLEN` (10_state.md R22). -/
def State.nextPc (s : State) : Word64 := fitXlen s.base (s.pc + 4#64)

/-- `pc <- pc + 4`, what every instruction that completes does to `pc` (10_state.md R23). -/
def State.advancePc (s : State) : State := { s with pc := s.nextPc }

/-! ### The instruction memory (20_memory.md R42, R43) -/

/-- The byte at an address; `none` where the memory is not defined. That is what an unlisted address reads as: no
value (log entry 5). -/
def memByte : List Host.Cell → Nat → Option Byte
  | [], _ => none
  | (k, v) :: rest, a => if k = a then some v else memByte rest a

/-- Places a byte, keeping the addresses in rising order. Only the platform's load uses it: no instruction stores
(20_memory.md R40). -/
def memPut : List Host.Cell → Nat → Byte → List Host.Cell
  | [], a, v => [(a, v)]
  | (k, u) :: rest, a, v =>
    if a < k then (a, v) :: (k, u) :: rest
    else if a = k then (a, v) :: rest
    else (k, u) :: memPut rest a v

/-- The canonical form: strictly rising addresses. No cell can equal what an unlisted address reads as, which is no
value. -/
def memWf : List Host.Cell → Bool
  | [] => true
  | [_] => true
  | (a, _) :: (b, v) :: rest => decide (a < b) && memWf ((b, v) :: rest)

/-- The word at an address, little-endian (20_memory.md R43); defined where its four bytes are. -/
def memWord (m : List Host.Cell) (a : Nat) : Option Word32 :=
  match memByte m a, memByte m (a + 1), memByte m (a + 2), memByte m (a + 3) with
  | some b0, some b1, some b2, some b3 => some (wordOfBytes b0 b1 b2 b3)
  | _, _, _, _ => none

/-- Places bytes from an address up. -/
def memPutBytes (m : List Host.Cell) (a : Nat) : List Byte → List Host.Cell
  | [] => m
  | v :: rest => memPutBytes (memPut m a v) (a + 1) rest

/-- One byte of the instruction memory. -/
def State.readByte (s : State) (a : Nat) : Option Byte := memByte s.mem a

/-- The instruction fetch (20_memory.md R42): the word at `pc`, if `pc` is a multiple of 4 and the memory is defined
there; otherwise the model is stuck. -/
def State.fetch (s : State) : Except Fault Word32 :=
  if s.readPc.toNat % 4 = 0 then
    match memWord s.mem s.readPc.toNat with
    | some w => .ok w
    | none => .error .unmappedFetch
  else .error .misalignedFetch

/-- The state in which a word stands where the next step fetches: its bytes at the `pc`, rounded down to a multiple of 4,
and the fault record empty. -/
def State.placeWord (s : State) (w : Word32) : State :=
  let a := (s.readPc >>> 2) <<< 2
  { s with pc := a, fault := none, mem := memPutBytes s.mem a.toNat (bytesOfWord w) }

/-! ### The draws that answer CSR reads (10_state.md R28, 40_entropy_pseudo_ops.md R100; log entry 6) -/

/-- `draw(XLEN)`: the value the next CSR read returns. -/
def State.drawn (s : State) : Word64 := fitXlen s.base (Config.entropyRead s.draws)

/-- The state after that draw: the next one is another. -/
def State.afterDraw (s : State) : State := { s with draws := s.draws + 1 }

/-! ### Taking the Illegal Opcode Exception (60_exceptions.md R200, R204)

There is no return from it: the fault record is terminal (R207). -/

/-- `raise IllegalOpcode(insn)`: `fault <- (ILLEGAL_CAUSE, pc, insn)`; no register and not `pc` changes. -/
def State.raiseIllegal (s : State) (insn : Word32) : State :=
  { s with fault := some { cause := Config.illegalCause, epc := s.readPc, tval := insn } }

/-- An instruction's effect where the instruction is legal on the state's base, and the Illegal Opcode Exception with
its word where it is not: the first line of the pseudocode of the rules that test `rs1 = rd` or `rnum`
(41_sm4.md R110, 46_aes64.md R160; for the other base's instructions see log entry 12). -/
def ifLegal (i : Instr) (s : State) (effect : State) : Host.Outcome State Fault Refusal :=
  if i.wellFormed s.base then .next effect else .next (s.raiseIllegal (encode i))

/-- Writes an XLEN-bit result and goes on: `x[rd] <- v; pc <- pc + 4`. -/
def State.retire (s : State) (rd : RegIdx) (v : Word64) : State := (s.writeX rd v).advancePc

end Sys2Proof.Machine
end

