-- ==== Sys2Proof/Machine/Operands.lean ====
section
/-! DEFINITION. The operand forms: what an instruction reads of its sources, how a 32-bit or 64-bit result is written
(00_scope.md R8, R9), and the vector primitives of R8. -/

namespace Sys2Proof.Machine

/-- `byte(v, i)` of a 32-bit value: bits `8*i+7` to `8*i`. -/
def byte32 (v : Word32) (i : Nat) : Byte := v.extractLsb' (8 * i) 8

/-- `byte(v, i)` of a 64-bit value. -/
def byte64 (v : Word64) (i : Nat) : Byte := v.extractLsb' (8 * i) 8

/-- `rol32(v, n)`. -/
def rol32 (v : Word32) (n : Nat) : Word32 := v.rotateLeft n

/-- `ror32(v, n)`. -/
def ror32 (v : Word32) (n : Nat) : Word32 := v.rotateRight n

/-- `ror64(v, n)`. -/
def ror64 (v : Word64) (n : Nat) : Word64 := v.rotateRight n

/-- `v[31:0]`. -/
def lo32 (v : Word64) : Word32 := v.extractLsb' 0 32

/-- `v[63:32]`. -/
def hi32 (v : Word64) : Word32 := v.extractLsb' 32 32

/-- `x[r][31:0]`, all that an instruction on 32-bit data reads of a source (00_scope.md R9). -/
def State.src32 (s : State) (r : RegIdx) : Word32 := lo32 (s.readX r)

/-- `x[rd] <- sext_XLEN(z); pc <- pc + 4`. -/
def State.retire32 (s : State) (rd : RegIdx) (z : Word32) : State := s.retire rd (sextXlen s.base z)

/-- The accumulating form of the SM4 and RV32 AES instructions: `rol32(y, 8*bs) ^ a`. -/
def accumulate (a y : Word32) (bs : BitVec 2) : Word32 := rol32 y (8 * bs.toNat) ^^^ a

/-- The byte of `x[rs2]` those instructions select: `byte(v, bs)` (30_encoding.md R72). -/
def selectByte (v : Word32) (bs : BitVec 2) : Byte := byte32 v bs.toNat

end Sys2Proof.Machine
end

