-- ==== Sys2Proof/Machine/CryptoTables.lean ====
section
/-! DEFINITION. The tables and helper functions of the AES and SM4 instructions (48_crypto_tables.md R190 to R199), all
defaults of the spec's decision D13 (log entry 10). -/

namespace Sys2Proof.Machine

/-! ### Arithmetic in GF(2^8) (R190) -/

/-- `xtime(b)`: multiplication by the polynomial `x`. -/
def xtime (b : Byte) : Byte := (b <<< 1) ^^^ (if b.getLsbD 7 then 0x1B#8 else 0x00#8)

/-- `gfmul(b, c)`: the exclusive-or of `xtime^i(b)` over the bits `i` of `c` that are 1. -/
def gfmul (b : Byte) (c : BitVec 4) : Byte :=
  (if c.getLsbD 0 then b else 0#8) ^^^
  (if c.getLsbD 1 then xtime b else 0#8) ^^^
  (if c.getLsbD 2 then xtime (xtime b) else 0#8) ^^^
  (if c.getLsbD 3 then xtime (xtime (xtime b)) else 0#8)

/-! ### The S-boxes (R191 to R193) -/

/-- The entry of a 16 by 16 table at row `b[7:4]`, column `b[3:0]`. -/
def lookup (table : List (List Byte)) (b : Byte) : Byte :=
  (table.getD (b.toNat / 16) []).getD (b.toNat % 16) 0#8

/-- AES forward S-box table (48_crypto_tables.md R191): the row is the high nibble, the column the low one. -/
def aesSboxFwdTable : List (List Byte) :=
  [ [0x63, 0x7c, 0x77, 0x7b, 0xf2, 0x6b, 0x6f, 0xc5, 0x30, 0x01, 0x67, 0x2b, 0xfe, 0xd7, 0xab, 0x76],
    [0xca, 0x82, 0xc9, 0x7d, 0xfa, 0x59, 0x47, 0xf0, 0xad, 0xd4, 0xa2, 0xaf, 0x9c, 0xa4, 0x72, 0xc0],
    [0xb7, 0xfd, 0x93, 0x26, 0x36, 0x3f, 0xf7, 0xcc, 0x34, 0xa5, 0xe5, 0xf1, 0x71, 0xd8, 0x31, 0x15],
    [0x04, 0xc7, 0x23, 0xc3, 0x18, 0x96, 0x05, 0x9a, 0x07, 0x12, 0x80, 0xe2, 0xeb, 0x27, 0xb2, 0x75] ]
  ++ [ [0x09, 0x83, 0x2c, 0x1a, 0x1b, 0x6e, 0x5a, 0xa0, 0x52, 0x3b, 0xd6, 0xb3, 0x29, 0xe3, 0x2f, 0x84],
    [0x53, 0xd1, 0x00, 0xed, 0x20, 0xfc, 0xb1, 0x5b, 0x6a, 0xcb, 0xbe, 0x39, 0x4a, 0x4c, 0x58, 0xcf],
    [0xd0, 0xef, 0xaa, 0xfb, 0x43, 0x4d, 0x33, 0x85, 0x45, 0xf9, 0x02, 0x7f, 0x50, 0x3c, 0x9f, 0xa8],
    [0x51, 0xa3, 0x40, 0x8f, 0x92, 0x9d, 0x38, 0xf5, 0xbc, 0xb6, 0xda, 0x21, 0x10, 0xff, 0xf3, 0xd2] ]
  ++ [ [0xcd, 0x0c, 0x13, 0xec, 0x5f, 0x97, 0x44, 0x17, 0xc4, 0xa7, 0x7e, 0x3d, 0x64, 0x5d, 0x19, 0x73],
    [0x60, 0x81, 0x4f, 0xdc, 0x22, 0x2a, 0x90, 0x88, 0x46, 0xee, 0xb8, 0x14, 0xde, 0x5e, 0x0b, 0xdb],
    [0xe0, 0x32, 0x3a, 0x0a, 0x49, 0x06, 0x24, 0x5c, 0xc2, 0xd3, 0xac, 0x62, 0x91, 0x95, 0xe4, 0x79],
    [0xe7, 0xc8, 0x37, 0x6d, 0x8d, 0xd5, 0x4e, 0xa9, 0x6c, 0x56, 0xf4, 0xea, 0x65, 0x7a, 0xae, 0x08] ]
  ++ [ [0xba, 0x78, 0x25, 0x2e, 0x1c, 0xa6, 0xb4, 0xc6, 0xe8, 0xdd, 0x74, 0x1f, 0x4b, 0xbd, 0x8b, 0x8a],
    [0x70, 0x3e, 0xb5, 0x66, 0x48, 0x03, 0xf6, 0x0e, 0x61, 0x35, 0x57, 0xb9, 0x86, 0xc1, 0x1d, 0x9e],
    [0xe1, 0xf8, 0x98, 0x11, 0x69, 0xd9, 0x8e, 0x94, 0x9b, 0x1e, 0x87, 0xe9, 0xce, 0x55, 0x28, 0xdf],
    [0x8c, 0xa1, 0x89, 0x0d, 0xbf, 0xe6, 0x42, 0x68, 0x41, 0x99, 0x2d, 0x0f, 0xb0, 0x54, 0xbb, 0x16] ]

/-- AES inverse S-box table (48_crypto_tables.md R192). -/
def aesSboxInvTable : List (List Byte) :=
  [ [0x52, 0x09, 0x6a, 0xd5, 0x30, 0x36, 0xa5, 0x38, 0xbf, 0x40, 0xa3, 0x9e, 0x81, 0xf3, 0xd7, 0xfb],
    [0x7c, 0xe3, 0x39, 0x82, 0x9b, 0x2f, 0xff, 0x87, 0x34, 0x8e, 0x43, 0x44, 0xc4, 0xde, 0xe9, 0xcb],
    [0x54, 0x7b, 0x94, 0x32, 0xa6, 0xc2, 0x23, 0x3d, 0xee, 0x4c, 0x95, 0x0b, 0x42, 0xfa, 0xc3, 0x4e],
    [0x08, 0x2e, 0xa1, 0x66, 0x28, 0xd9, 0x24, 0xb2, 0x76, 0x5b, 0xa2, 0x49, 0x6d, 0x8b, 0xd1, 0x25] ]
  ++ [ [0x72, 0xf8, 0xf6, 0x64, 0x86, 0x68, 0x98, 0x16, 0xd4, 0xa4, 0x5c, 0xcc, 0x5d, 0x65, 0xb6, 0x92],
    [0x6c, 0x70, 0x48, 0x50, 0xfd, 0xed, 0xb9, 0xda, 0x5e, 0x15, 0x46, 0x57, 0xa7, 0x8d, 0x9d, 0x84],
    [0x90, 0xd8, 0xab, 0x00, 0x8c, 0xbc, 0xd3, 0x0a, 0xf7, 0xe4, 0x58, 0x05, 0xb8, 0xb3, 0x45, 0x06],
    [0xd0, 0x2c, 0x1e, 0x8f, 0xca, 0x3f, 0x0f, 0x02, 0xc1, 0xaf, 0xbd, 0x03, 0x01, 0x13, 0x8a, 0x6b] ]
  ++ [ [0x3a, 0x91, 0x11, 0x41, 0x4f, 0x67, 0xdc, 0xea, 0x97, 0xf2, 0xcf, 0xce, 0xf0, 0xb4, 0xe6, 0x73],
    [0x96, 0xac, 0x74, 0x22, 0xe7, 0xad, 0x35, 0x85, 0xe2, 0xf9, 0x37, 0xe8, 0x1c, 0x75, 0xdf, 0x6e],
    [0x47, 0xf1, 0x1a, 0x71, 0x1d, 0x29, 0xc5, 0x89, 0x6f, 0xb7, 0x62, 0x0e, 0xaa, 0x18, 0xbe, 0x1b],
    [0xfc, 0x56, 0x3e, 0x4b, 0xc6, 0xd2, 0x79, 0x20, 0x9a, 0xdb, 0xc0, 0xfe, 0x78, 0xcd, 0x5a, 0xf4] ]
  ++ [ [0x1f, 0xdd, 0xa8, 0x33, 0x88, 0x07, 0xc7, 0x31, 0xb1, 0x12, 0x10, 0x59, 0x27, 0x80, 0xec, 0x5f],
    [0x60, 0x51, 0x7f, 0xa9, 0x19, 0xb5, 0x4a, 0x0d, 0x2d, 0xe5, 0x7a, 0x9f, 0x93, 0xc9, 0x9c, 0xef],
    [0xa0, 0xe0, 0x3b, 0x4d, 0xae, 0x2a, 0xf5, 0xb0, 0xc8, 0xeb, 0xbb, 0x3c, 0x83, 0x53, 0x99, 0x61],
    [0x17, 0x2b, 0x04, 0x7e, 0xba, 0x77, 0xd6, 0x26, 0xe1, 0x69, 0x14, 0x63, 0x55, 0x21, 0x0c, 0x7d] ]

/-- SM4 S-box table (48_crypto_tables.md R193). -/
def sm4SboxTable : List (List Byte) :=
  [ [0xd6, 0x90, 0xe9, 0xfe, 0xcc, 0xe1, 0x3d, 0xb7, 0x16, 0xb6, 0x14, 0xc2, 0x28, 0xfb, 0x2c, 0x05],
    [0x2b, 0x67, 0x9a, 0x76, 0x2a, 0xbe, 0x04, 0xc3, 0xaa, 0x44, 0x13, 0x26, 0x49, 0x86, 0x06, 0x99],
    [0x9c, 0x42, 0x50, 0xf4, 0x91, 0xef, 0x98, 0x7a, 0x33, 0x54, 0x0b, 0x43, 0xed, 0xcf, 0xac, 0x62],
    [0xe4, 0xb3, 0x1c, 0xa9, 0xc9, 0x08, 0xe8, 0x95, 0x80, 0xdf, 0x94, 0xfa, 0x75, 0x8f, 0x3f, 0xa6] ]
  ++ [ [0x47, 0x07, 0xa7, 0xfc, 0xf3, 0x73, 0x17, 0xba, 0x83, 0x59, 0x3c, 0x19, 0xe6, 0x85, 0x4f, 0xa8],
    [0x68, 0x6b, 0x81, 0xb2, 0x71, 0x64, 0xda, 0x8b, 0xf8, 0xeb, 0x0f, 0x4b, 0x70, 0x56, 0x9d, 0x35],
    [0x1e, 0x24, 0x0e, 0x5e, 0x63, 0x58, 0xd1, 0xa2, 0x25, 0x22, 0x7c, 0x3b, 0x01, 0x21, 0x78, 0x87],
    [0xd4, 0x00, 0x46, 0x57, 0x9f, 0xd3, 0x27, 0x52, 0x4c, 0x36, 0x02, 0xe7, 0xa0, 0xc4, 0xc8, 0x9e] ]
  ++ [ [0xea, 0xbf, 0x8a, 0xd2, 0x40, 0xc7, 0x38, 0xb5, 0xa3, 0xf7, 0xf2, 0xce, 0xf9, 0x61, 0x15, 0xa1],
    [0xe0, 0xae, 0x5d, 0xa4, 0x9b, 0x34, 0x1a, 0x55, 0xad, 0x93, 0x32, 0x30, 0xf5, 0x8c, 0xb1, 0xe3],
    [0x1d, 0xf6, 0xe2, 0x2e, 0x82, 0x66, 0xca, 0x60, 0xc0, 0x29, 0x23, 0xab, 0x0d, 0x53, 0x4e, 0x6f],
    [0xd5, 0xdb, 0x37, 0x45, 0xde, 0xfd, 0x8e, 0x2f, 0x03, 0xff, 0x6a, 0x72, 0x6d, 0x6c, 0x5b, 0x51] ]
  ++ [ [0x8d, 0x1b, 0xaf, 0x92, 0xbb, 0xdd, 0xbc, 0x7f, 0x11, 0xd9, 0x5c, 0x41, 0x1f, 0x10, 0x5a, 0xd8],
    [0x0a, 0xc1, 0x31, 0x88, 0xa5, 0xcd, 0x7b, 0xbd, 0x2d, 0x74, 0xd0, 0x12, 0xb8, 0xe5, 0xb4, 0xb0],
    [0x89, 0x69, 0x97, 0x4a, 0x0c, 0x96, 0x77, 0x7e, 0x65, 0xb9, 0xf1, 0x09, 0xc5, 0x6e, 0xc6, 0x84],
    [0x18, 0xf0, 0x7d, 0xec, 0x3a, 0xdc, 0x4d, 0x20, 0x79, 0xee, 0x5f, 0x3e, 0xd7, 0xcb, 0x39, 0x48] ]

/-- `aes_sbox_fwd(b)` (R191). -/
def aesSboxFwd (b : Byte) : Byte := lookup aesSboxFwdTable b

/-- `aes_sbox_inv(b)` (R192). -/
def aesSboxInv (b : Byte) : Byte := lookup aesSboxInvTable b

/-- `sm4_sbox(b)` (R193). -/
def sm4Sbox (b : Byte) : Byte := lookup sm4SboxTable b

/-! ### AES column functions (R194, R195) -/

/-- `aes_mixbyte_fwd(s)` (R194). -/
def aesMixbyteFwd (s : Byte) : Word32 := gfmul s 3#4 ++ s ++ s ++ gfmul s 2#4

/-- `aes_mixbyte_inv(s)` (R194). -/
def aesMixbyteInv (s : Byte) : Word32 := gfmul s 0xB#4 ++ gfmul s 0xD#4 ++ gfmul s 9#4 ++ gfmul s 0xE#4

/-- `aes_mixcolumn_fwd(w)` (R195). -/
def aesMixcolumnFwd (w : Word32) : Word32 :=
  let b0 := byte32 w 0
  let b1 := byte32 w 1
  let b2 := byte32 w 2
  let b3 := byte32 w 3
  let r0 := gfmul b0 2#4 ^^^ gfmul b1 3#4 ^^^ b2 ^^^ b3
  let r1 := b0 ^^^ gfmul b1 2#4 ^^^ gfmul b2 3#4 ^^^ b3
  let r2 := b0 ^^^ b1 ^^^ gfmul b2 2#4 ^^^ gfmul b3 3#4
  let r3 := gfmul b0 3#4 ^^^ b1 ^^^ b2 ^^^ gfmul b3 2#4
  r3 ++ r2 ++ r1 ++ r0

/-- `aes_mixcolumn_inv(w)` (R195). -/
def aesMixcolumnInv (w : Word32) : Word32 :=
  let b0 := byte32 w 0
  let b1 := byte32 w 1
  let b2 := byte32 w 2
  let b3 := byte32 w 3
  let r0 := gfmul b0 0xE#4 ^^^ gfmul b1 0xB#4 ^^^ gfmul b2 0xD#4 ^^^ gfmul b3 9#4
  let r1 := gfmul b0 9#4 ^^^ gfmul b1 0xE#4 ^^^ gfmul b2 0xB#4 ^^^ gfmul b3 0xD#4
  let r2 := gfmul b0 0xD#4 ^^^ gfmul b1 9#4 ^^^ gfmul b2 0xE#4 ^^^ gfmul b3 0xB#4
  let r3 := gfmul b0 0xB#4 ^^^ gfmul b1 0xD#4 ^^^ gfmul b2 9#4 ^^^ gfmul b3 0xE#4
  r3 ++ r2 ++ r1 ++ r0

/-- A column function on each of the two columns of a 64-bit half state: `{f(v[63:32]), f(v[31:0])}`. -/
def onColumns (f : Word32 → Word32) (v : Word64) : Word64 := f (hi32 v) ++ f (lo32 v)

/-! ### Byte substitution, round constants, ShiftRows (R196 to R198) -/

/-- A byte function on each of the four bytes of a word, in place. -/
def onBytes4 (f : Byte → Byte) (w : Word32) : Word32 :=
  f (byte32 w 3) ++ f (byte32 w 2) ++ f (byte32 w 1) ++ f (byte32 w 0)

/-- A byte function on each of the eight bytes of a doubleword, in place. -/
def onBytes8 (f : Byte → Byte) (v : Word64) : Word64 := onBytes4 f (hi32 v) ++ onBytes4 f (lo32 v)

/-- `aes_subword_fwd(w)` (R196). -/
def aesSubwordFwd (w : Word32) : Word32 := onBytes4 aesSboxFwd w

/-- `aes_subbytes8_fwd(v)` (R196). -/
def aesSubbytes8Fwd (v : Word64) : Word64 := onBytes8 aesSboxFwd v

/-- `aes_subbytes8_inv(v)` (R196). -/
def aesSubbytes8Inv (v : Word64) : Word64 := onBytes8 aesSboxInv v

/-- The round constants `aes_rcon(0)` to `aes_rcon(10)` (R197). -/
def aesRconTable : List Byte := [0x01, 0x02, 0x04, 0x08, 0x10, 0x20, 0x40, 0x80, 0x1b, 0x36, 0x00]

/-- `aes_rcon(r)` (R197). The spec leaves it undefined for `r > 10`: there it is a free value, which no meaning uses,
since `aes64ks1i` takes the exception first (46_aes64.md R160; log entry 13). -/
def aesRcon (r : BitVec 4) : Byte := aesRconTable.getD r.toNat (Config.rconBeyond r)

/-- `aes_shiftrows_fwd(hi, lo)` (R198): the low half of the state `{hi, lo}` after ShiftRows. -/
def aesShiftrowsFwd (hi lo : Word64) : Word64 :=
  byte64 lo 3 ++ byte64 hi 6 ++ byte64 hi 1 ++ byte64 lo 4 ++ byte64 hi 7 ++ byte64 hi 2 ++ byte64 lo 5 ++ byte64 lo 0

/-- `aes_shiftrows_inv(hi, lo)` (R198): the low half of the state `{hi, lo}` after InvShiftRows. -/
def aesShiftrowsInv (hi lo : Word64) : Word64 :=
  byte64 hi 3 ++ byte64 hi 6 ++ byte64 lo 1 ++ byte64 lo 4 ++ byte64 lo 7 ++ byte64 hi 2 ++ byte64 hi 5 ++ byte64 lo 0

/-! ### SM4 linear functions (R199) -/

/-- `sm4_l_ed(s)`. -/
def sm4LEd (s : Byte) : Word32 :=
  let z : Word32 := s.setWidth 32
  z ^^^ (z <<< 8) ^^^ (z <<< 2) ^^^ (z <<< 18) ^^^ ((z &&& 0x3F#32) <<< 26) ^^^ ((z &&& 0xC0#32) <<< 10)

/-- `sm4_l_ks(s)`. -/
def sm4LKs (s : Byte) : Word32 :=
  let z : Word32 := s.setWidth 32
  z ^^^ ((z &&& 0x07#32) <<< 29) ^^^ ((z &&& 0xFE#32) <<< 7) ^^^ ((z &&& 0x01#32) <<< 23) ^^^ ((z &&& 0xF8#32) <<< 13)

end Sys2Proof.Machine
end

