-- ==== Sys2Proof/Machine/Aes32.lean ====
section
/-! DEFINITION. The RV32 AES instructions (44_aes32.md), with the defaults of `SEM_aes32*` (decision D13, log entry 10). -/

namespace Sys2Proof.Machine

/-- `a ^ rol32(aes_mixbyte_fwd(aes_sbox_fwd(byte(b, bs))), 8*bs)` (R140). -/
def semAes32esmi (a b : Word32) (bs : BitVec 2) : Word32 := accumulate a (aesMixbyteFwd (aesSboxFwd (selectByte b bs))) bs

/-- `a ^ rol32(zext_32(aes_sbox_fwd(byte(b, bs))), 8*bs)` (R141). -/
def semAes32esi (a b : Word32) (bs : BitVec 2) : Word32 := accumulate a ((aesSboxFwd (selectByte b bs)).setWidth 32) bs

/-- `a ^ rol32(aes_mixbyte_inv(aes_sbox_inv(byte(b, bs))), 8*bs)` (R142). -/
def semAes32dsmi (a b : Word32) (bs : BitVec 2) : Word32 := accumulate a (aesMixbyteInv (aesSboxInv (selectByte b bs))) bs

/-- `a ^ rol32(zext_32(aes_sbox_inv(byte(b, bs))), 8*bs)` (R143). -/
def semAes32dsi (a b : Word32) (bs : BitVec 2) : Word32 := accumulate a ((aesSboxInv (selectByte b bs)).setWidth 32) bs

/-- `aes32esmi rd, rs1, rs2, bs`, a middle encryption round (R140): both sources are read before the write. -/
def execAes32esmi (rd rs1 rs2 : RegIdx) (bs : BitVec 2) (s : State) : Host.Outcome State Fault Refusal :=
  ifLegal (.aes32esmi rd rs1 rs2 bs) s (s.retire32 rd (semAes32esmi (s.src32 rs1) (s.src32 rs2) bs))

/-- `aes32esi rd, rs1, rs2, bs`, the final encryption round (R141): both sources are read before the write. -/
def execAes32esi (rd rs1 rs2 : RegIdx) (bs : BitVec 2) (s : State) : Host.Outcome State Fault Refusal :=
  ifLegal (.aes32esi rd rs1 rs2 bs) s (s.retire32 rd (semAes32esi (s.src32 rs1) (s.src32 rs2) bs))

/-- `aes32dsmi rd, rs1, rs2, bs`, a middle decryption round (R142): both sources are read before the write. -/
def execAes32dsmi (rd rs1 rs2 : RegIdx) (bs : BitVec 2) (s : State) : Host.Outcome State Fault Refusal :=
  ifLegal (.aes32dsmi rd rs1 rs2 bs) s (s.retire32 rd (semAes32dsmi (s.src32 rs1) (s.src32 rs2) bs))

/-- `aes32dsi rd, rs1, rs2, bs`, the final decryption round (R143): both sources are read before the write. -/
def execAes32dsi (rd rs1 rs2 : RegIdx) (bs : BitVec 2) (s : State) : Host.Outcome State Fault Refusal :=
  ifLegal (.aes32dsi rd rs1 rs2 bs) s (s.retire32 rd (semAes32dsi (s.src32 rs1) (s.src32 rs2) bs))

end Sys2Proof.Machine
end

