-- ==== Sys2Proof/Machine/Aes64.lean ====
section
/-! DEFINITION. The RV64 AES instructions (46_aes64.md), with the defaults of `SEM_aes64*` (decision D13, log entry 10). -/

namespace Sys2Proof.Machine

/-- The word `w` of R160: `rnum = 0xA` substitutes without rotating and with the round constant 0. -/
def semAes64ks1i (a : Word64) (rnum : BitVec 4) : Word64 :=
  let t := hi32 a
  let u := if rnum = 0xA#4 then t else ror32 t 8
  let w := aesSubwordFwd u ^^^ (aesRcon rnum).setWidth 32
  w ++ w

/-- `w0 <- a[63:32] ^ b[31:0]; w1 <- w0 ^ b[63:32]`, and the result `w1, w0` (R161). -/
def semAes64ks2 (a b : Word64) : Word64 :=
  let w0 := hi32 a ^^^ lo32 b
  let w1 := w0 ^^^ hi32 b
  w1 ++ w0

/-- InvMixColumns of two columns (R162). -/
def semAes64im (a : Word64) : Word64 := onColumns aesMixcolumnInv a

/-- ShiftRows, SubBytes, MixColumns of the half state `a`, with `b` the other half (R163). -/
def semAes64esm (a b : Word64) : Word64 := onColumns aesMixcolumnFwd (aesSubbytes8Fwd (aesShiftrowsFwd b a))

/-- ShiftRows, SubBytes (R164). -/
def semAes64es (a b : Word64) : Word64 := aesSubbytes8Fwd (aesShiftrowsFwd b a)

/-- InvShiftRows, InvSubBytes, InvMixColumns (R165). -/
def semAes64dsm (a b : Word64) : Word64 := onColumns aesMixcolumnInv (aesSubbytes8Inv (aesShiftrowsInv b a))

/-- InvShiftRows, InvSubBytes (R166). -/
def semAes64ds (a b : Word64) : Word64 := aesSubbytes8Inv (aesShiftrowsInv b a)

/-- `aes64ks1i rd, rs1, rnum`, key schedule step 1 (R160); `rnum > RNUM_MAX` takes the exception (D14). -/
def execAes64ks1i (rd rs1 : RegIdx) (rnum : BitVec 4) (s : State) : Host.Outcome State Fault Refusal :=
  ifLegal (.aes64ks1i rd rs1 rnum) s (s.retire rd (semAes64ks1i (s.readX rs1) rnum))

/-- `aes64ks2 rd, rs1, rs2`, key schedule step 2, legal for every `rd` (R161). -/
def execAes64ks2 (rd rs1 rs2 : RegIdx) (s : State) : Host.Outcome State Fault Refusal :=
  ifLegal (.aes64ks2 rd rs1 rs2) s (s.retire rd (semAes64ks2 (s.readX rs1) (s.readX rs2)))

/-- `aes64im rd, rs1`, legal for every `rd` (R162). -/
def execAes64im (rd rs1 : RegIdx) (s : State) : Host.Outcome State Fault Refusal :=
  ifLegal (.aes64im rd rs1) s (s.retire rd (semAes64im (s.readX rs1)))

/-- `aes64esm rd, rs1, rs2` (R163). -/
def execAes64esm (rd rs1 rs2 : RegIdx) (s : State) : Host.Outcome State Fault Refusal :=
  ifLegal (.aes64esm rd rs1 rs2) s (s.retire rd (semAes64esm (s.readX rs1) (s.readX rs2)))

/-- `aes64es rd, rs1, rs2` (R164). -/
def execAes64es (rd rs1 rs2 : RegIdx) (s : State) : Host.Outcome State Fault Refusal :=
  ifLegal (.aes64es rd rs1 rs2) s (s.retire rd (semAes64es (s.readX rs1) (s.readX rs2)))

/-- `aes64dsm rd, rs1, rs2` (R165). -/
def execAes64dsm (rd rs1 rs2 : RegIdx) (s : State) : Host.Outcome State Fault Refusal :=
  ifLegal (.aes64dsm rd rs1 rs2) s (s.retire rd (semAes64dsm (s.readX rs1) (s.readX rs2)))

/-- `aes64ds rd, rs1, rs2` (R166). -/
def execAes64ds (rd rs1 rs2 : RegIdx) (s : State) : Host.Outcome State Fault Refusal :=
  ifLegal (.aes64ds rd rs1 rs2) s (s.retire rd (semAes64ds (s.readX rs1) (s.readX rs2)))

end Sys2Proof.Machine
end

