-- ==== Sys2Proof/Machine/Entropy.lean ====
section
/-! DEFINITION. The pseudo-ops `pollentropy` and `getnoise` (40_entropy_pseudo_ops.md): CSR reads whose value is a draw. -/

namespace Sys2Proof.Machine

/-- What both do: `v <- draw(XLEN); x[rd] <- v; pc <- pc + 4`. With `rd = x0` the draw is made and discarded. -/
def State.readEntropy (s : State) (rd : RegIdx) : State := s.afterDraw.retire rd s.drawn

/-- `pollentropy rd` (R100). The read never faults (60_exceptions.md R203, R206). -/
def execPollentropy (rd : RegIdx) (s : State) : Host.Outcome State Fault Refusal :=
  ifLegal (.pollentropy rd) s (s.readEntropy rd)

/-- `getnoise rd` (R101). -/
def execGetnoise (rd : RegIdx) (s : State) : Host.Outcome State Fault Refusal :=
  ifLegal (.getnoise rd) s (s.readEntropy rd)

end Sys2Proof.Machine
end

