-- ==== Sys2Proof/Machine/Sha256.lean ====
section
/-! DEFINITION. The SHA-256 instructions (43_sha256.md), with the defaults of `SEM_sha256*` (decision D13, log entry 10). -/

namespace Sys2Proof.Machine

/-- `ror32(a, 2) ^ ror32(a, 13) ^ ror32(a, 22)` (R130). -/
def semSha256sum0 (a : Word32) : Word32 := ror32 a 2 ^^^ ror32 a 13 ^^^ ror32 a 22

/-- `ror32(a, 6) ^ ror32(a, 11) ^ ror32(a, 25)` (R131). -/
def semSha256sum1 (a : Word32) : Word32 := ror32 a 6 ^^^ ror32 a 11 ^^^ ror32 a 25

/-- `ror32(a, 7) ^ ror32(a, 18) ^ (a >> 3)` (R132). -/
def semSha256sig0 (a : Word32) : Word32 := ror32 a 7 ^^^ ror32 a 18 ^^^ (a >>> 3)

/-- `ror32(a, 17) ^ ror32(a, 19) ^ (a >> 10)` (R133). -/
def semSha256sig1 (a : Word32) : Word32 := ror32 a 17 ^^^ ror32 a 19 ^^^ (a >>> 10)

/-- `sha256sum0 rd, rs1` (R130). -/
def execSha256sum0 (rd rs1 : RegIdx) (s : State) : Host.Outcome State Fault Refusal :=
  ifLegal (.sha256sum0 rd rs1) s (s.retire32 rd (semSha256sum0 (s.src32 rs1)))

/-- `sha256sum1 rd, rs1` (R131). -/
def execSha256sum1 (rd rs1 : RegIdx) (s : State) : Host.Outcome State Fault Refusal :=
  ifLegal (.sha256sum1 rd rs1) s (s.retire32 rd (semSha256sum1 (s.src32 rs1)))

/-- `sha256sig0 rd, rs1` (R132). -/
def execSha256sig0 (rd rs1 : RegIdx) (s : State) : Host.Outcome State Fault Refusal :=
  ifLegal (.sha256sig0 rd rs1) s (s.retire32 rd (semSha256sig0 (s.src32 rs1)))

/-- `sha256sig1 rd, rs1` (R133). -/
def execSha256sig1 (rd rs1 : RegIdx) (s : State) : Host.Outcome State Fault Refusal :=
  ifLegal (.sha256sig1 rd rs1) s (s.retire32 rd (semSha256sig1 (s.src32 rs1)))

end Sys2Proof.Machine
end

