-- ==== Sys2Proof/Machine/Sha512Rv32.lean ====
section
/-! DEFINITION. The RV32 SHA-512 instructions (45_sha512_rv32.md), with the defaults of `SEM_sha512*` (decision D13, log entry 10).
All shifts are logical shifts of 32-bit values. -/

namespace Sys2Proof.Machine

/-- R150: with `(lo, hi)` the low half, with `(hi, lo)` the high half of SHA-512's sum0. -/
def semSha512sum0r (a b : Word32) : Word32 :=
  (a <<< 25) ^^^ (a <<< 30) ^^^ (a >>> 28) ^^^ (b >>> 7) ^^^ (b >>> 2) ^^^ (b <<< 4)

/-- R151: the same for sum1. -/
def semSha512sum1r (a b : Word32) : Word32 :=
  (a <<< 23) ^^^ (a >>> 14) ^^^ (a >>> 18) ^^^ (b >>> 9) ^^^ (b <<< 18) ^^^ (b <<< 14)

/-- R152: with `(lo, hi)` the low half of sig0. -/
def semSha512sig0l (a b : Word32) : Word32 :=
  (a >>> 1) ^^^ (a >>> 7) ^^^ (a >>> 8) ^^^ (b <<< 31) ^^^ (b <<< 25) ^^^ (b <<< 24)

/-- R153: with `(hi, lo)` the high half of sig0. -/
def semSha512sig0h (a b : Word32) : Word32 :=
  (a >>> 1) ^^^ (a >>> 7) ^^^ (a >>> 8) ^^^ (b <<< 31) ^^^ (b <<< 24)

/-- R154: with `(lo, hi)` the low half of sig1. -/
def semSha512sig1l (a b : Word32) : Word32 :=
  (a <<< 3) ^^^ (a >>> 6) ^^^ (a >>> 19) ^^^ (b >>> 29) ^^^ (b <<< 26) ^^^ (b <<< 13)

/-- R155: with `(hi, lo)` the high half of sig1. -/
def semSha512sig1h (a b : Word32) : Word32 :=
  (a <<< 3) ^^^ (a >>> 6) ^^^ (a >>> 19) ^^^ (b >>> 29) ^^^ (b <<< 13)

/-- `sha512sum0r rd, rs1, rs2` (R150). -/
def execSha512sum0r (rd rs1 rs2 : RegIdx) (s : State) : Host.Outcome State Fault Refusal :=
  ifLegal (.sha512sum0r rd rs1 rs2) s (s.retire32 rd (semSha512sum0r (s.src32 rs1) (s.src32 rs2)))

/-- `sha512sum1r rd, rs1, rs2` (R151). -/
def execSha512sum1r (rd rs1 rs2 : RegIdx) (s : State) : Host.Outcome State Fault Refusal :=
  ifLegal (.sha512sum1r rd rs1 rs2) s (s.retire32 rd (semSha512sum1r (s.src32 rs1) (s.src32 rs2)))

/-- `sha512sig0l rd, rs1, rs2` (R152). -/
def execSha512sig0l (rd rs1 rs2 : RegIdx) (s : State) : Host.Outcome State Fault Refusal :=
  ifLegal (.sha512sig0l rd rs1 rs2) s (s.retire32 rd (semSha512sig0l (s.src32 rs1) (s.src32 rs2)))

/-- `sha512sig0h rd, rs1, rs2` (R153). -/
def execSha512sig0h (rd rs1 rs2 : RegIdx) (s : State) : Host.Outcome State Fault Refusal :=
  ifLegal (.sha512sig0h rd rs1 rs2) s (s.retire32 rd (semSha512sig0h (s.src32 rs1) (s.src32 rs2)))

/-- `sha512sig1l rd, rs1, rs2` (R154). -/
def execSha512sig1l (rd rs1 rs2 : RegIdx) (s : State) : Host.Outcome State Fault Refusal :=
  ifLegal (.sha512sig1l rd rs1 rs2) s (s.retire32 rd (semSha512sig1l (s.src32 rs1) (s.src32 rs2)))

/-- `sha512sig1h rd, rs1, rs2` (R155). -/
def execSha512sig1h (rd rs1 rs2 : RegIdx) (s : State) : Host.Outcome State Fault Refusal :=
  ifLegal (.sha512sig1h rd rs1 rs2) s (s.retire32 rd (semSha512sig1h (s.src32 rs1) (s.src32 rs2)))

end Sys2Proof.Machine
end

