-- ==== Sys2Proof/Machine/Sha512Rv64.lean ====
section
/-! DEFINITION. The RV64 SHA-512 instructions (47_sha512_rv64.md), with the defaults of `SEM_sha512*` (decision D13, log entry 10). -/

namespace Sys2Proof.Machine

/-- `ror64(a, 28) ^ ror64(a, 34) ^ ror64(a, 39)` (R180). -/
def semSha512sum0 (a : Word64) : Word64 := ror64 a 28 ^^^ ror64 a 34 ^^^ ror64 a 39

/-- `ror64(a, 14) ^ ror64(a, 18) ^ ror64(a, 41)` (R181). -/
def semSha512sum1 (a : Word64) : Word64 := ror64 a 14 ^^^ ror64 a 18 ^^^ ror64 a 41

/-- `ror64(a, 1) ^ ror64(a, 8) ^ (a >> 7)` (R182). -/
def semSha512sig0 (a : Word64) : Word64 := ror64 a 1 ^^^ ror64 a 8 ^^^ (a >>> 7)

/-- `ror64(a, 19) ^ ror64(a, 61) ^ (a >> 6)` (R183). -/
def semSha512sig1 (a : Word64) : Word64 := ror64 a 19 ^^^ ror64 a 61 ^^^ (a >>> 6)

/-- `sha512sum0 rd, rs1` (R180). -/
def execSha512sum0 (rd rs1 : RegIdx) (s : State) : Host.Outcome State Fault Refusal :=
  ifLegal (.sha512sum0 rd rs1) s (s.retire rd (semSha512sum0 (s.readX rs1)))

/-- `sha512sum1 rd, rs1` (R181). -/
def execSha512sum1 (rd rs1 : RegIdx) (s : State) : Host.Outcome State Fault Refusal :=
  ifLegal (.sha512sum1 rd rs1) s (s.retire rd (semSha512sum1 (s.readX rs1)))

/-- `sha512sig0 rd, rs1` (R182). -/
def execSha512sig0 (rd rs1 : RegIdx) (s : State) : Host.Outcome State Fault Refusal :=
  ifLegal (.sha512sig0 rd rs1) s (s.retire rd (semSha512sig0 (s.readX rs1)))

/-- `sha512sig1 rd, rs1` (R183). -/
def execSha512sig1 (rd rs1 : RegIdx) (s : State) : Host.Outcome State Fault Refusal :=
  ifLegal (.sha512sig1 rd rs1) s (s.retire rd (semSha512sig1 (s.readX rs1)))

end Sys2Proof.Machine
end

