-- ==== Sys2Proof/Machine/Sm3.lean ====
section
/-! DEFINITION. The SM3 instructions (42_sm3.md), with the defaults of `SEM_sm3p0`, `SEM_sm3p1` (decision D13, log entry 10). -/

namespace Sys2Proof.Machine

/-- `a ^ rol32(a, 9) ^ rol32(a, 17)` (R120). -/
def semSm3p0 (a : Word32) : Word32 := a ^^^ rol32 a 9 ^^^ rol32 a 17

/-- `a ^ rol32(a, 15) ^ rol32(a, 23)` (R121). -/
def semSm3p1 (a : Word32) : Word32 := a ^^^ rol32 a 15 ^^^ rol32 a 23

/-- `sm3p0 rd, rs1` (R120). -/
def execSm3p0 (rd rs1 : RegIdx) (s : State) : Host.Outcome State Fault Refusal :=
  ifLegal (.sm3p0 rd rs1) s (s.retire32 rd (semSm3p0 (s.src32 rs1)))

/-- `sm3p1 rd, rs1` (R121). -/
def execSm3p1 (rd rs1 : RegIdx) (s : State) : Host.Outcome State Fault Refusal :=
  ifLegal (.sm3p1 rd rs1) s (s.retire32 rd (semSm3p1 (s.src32 rs1)))

end Sys2Proof.Machine
end

