-- ==== Sys2Proof/Machine/Sm4.lean ====
section
/-! DEFINITION. The SM4 instructions (41_sm4.md). `semSm4ed`, `semSm4ks` are the parameters `SEM_sm4ed`, `SEM_sm4ks` of decision
D13 with the spec's defaults (log entry 10). -/

namespace Sys2Proof.Machine

/-- `rol32(sm4_l_ed(sm4_sbox(byte(b, bs))), 8*bs) ^ a` (R110). -/
def semSm4ed (a b : Word32) (bs : BitVec 2) : Word32 := accumulate a (sm4LEd (sm4Sbox (selectByte b bs))) bs

/-- `rol32(sm4_l_ks(sm4_sbox(byte(b, bs))), 8*bs) ^ a` (R111). -/
def semSm4ks (a b : Word32) (bs : BitVec 2) : Word32 := accumulate a (sm4LKs (sm4Sbox (selectByte b bs))) bs

/-- `sm4ed rd, rs1, rs2, bs`, an SM4 round step (R110): both sources are read before the write. -/
def execSm4ed (rd rs1 rs2 : RegIdx) (bs : BitVec 2) (s : State) : Host.Outcome State Fault Refusal :=
  ifLegal (.sm4ed rd rs1 rs2 bs) s (s.retire32 rd (semSm4ed (s.src32 rs1) (s.src32 rs2) bs))

/-- `sm4ks rd, rs1, rs2, bs`, an SM4 key-schedule step (R111): both sources are read before the write. -/
def execSm4ks (rd rs1 rs2 : RegIdx) (bs : BitVec 2) (s : State) : Host.Outcome State Fault Refusal :=
  ifLegal (.sm4ks rd rs1 rs2 bs) s (s.retire32 rd (semSm4ks (s.src32 rs1) (s.src32 rs2) bs))

end Sys2Proof.Machine
end

