-- ==== Sys2Proof/Machine/Step.lean ====
section
/-! DEFINITION. One step of the hart (20_memory.md R42, R47; 60_exceptions.md R204, R205), and the load of one word
where the next step fetches. -/

namespace Sys2Proof.Machine

/-- One step. In the order of R205: a run that has ended has no further step, a fetch that cannot be performed is stuck,
a word that is no instruction takes the Illegal Opcode Exception, an instruction runs. -/
def step (s : State) : Host.Outcome State Fault Refusal :=
  match s.fault with
  | some _ => .fault .runEnded
  | none =>
    match s.fetch with
    | .error f => .fault f
    | .ok w =>
      match resolve s.base w with
      | some i => exec i s
      | none => .next (s.raiseIllegal w)

/-- The platform's load of one instruction word where the next step fetches (70_reset_and_hazards.md R231; log entry
5): on the base on which the word is an instruction, its four bytes at `pc`. A misaligned `pc` is aligned and a
fault record that ended the run is emptied, without which no step would fetch. -/
def State.withFetchWord (s : State) (nbits w : Nat) : State :=
  ({ s with base := baseFor s.base (tableWord nbits w) } : State).placeWord (tableWord nbits w)

end Sys2Proof.Machine
end

