-- ==== Sys2Proof/Safety.lean ====
section
/-! DEFINITION. The terms the claims are made in: what an instruction that completes leaves, what the Illegal Opcode
Exception leaves, the invariant of the machine, and the standards' functions the instructions compose into. -/

namespace Sys2Proof.Machine

/-! ### What a step leaves -/

/-- `t` is `s` after an instruction with destination `rd` and result `v` has completed: `x[rd]` holds `v` (`x[0]` still
reads 0, 10_state.md R21), `pc` is `pc + 4` modulo `2^XLEN` (R22, R23), and every other register, the base, the fault
record and every byte of memory are as before. -/
structure Retired (s t : State) (rd : RegIdx) (v : Word64) : Prop where
  dest : t.readX rd = if rd = 0#5 then 0#64 else v
  others : ∀ r : RegIdx, r ≠ rd → t.readX r = s.readX r
  pc : t.readPc.toNat = (s.readPc.toNat + 4) % 2 ^ s.base.xlen
  base : t.base = s.base
  fault : t.fault = s.fault
  memory : ∀ a : Nat, t.readByte a = s.readByte a

/-- `t` is `s` after `n` instructions in a row with one destination `rd` have completed and left `v` in it: as `Retired`, with
`pc` moved by `4 * n` modulo `2^XLEN` and no draw made. -/
structure RetiredRun (n : Nat) (s t : State) (rd : RegIdx) (v : Word64) : Prop where
  dest : t.readX rd = if rd = 0#5 then 0#64 else v
  others : ∀ r : RegIdx, r ≠ rd → t.readX r = s.readX r
  pc : t.readPc.toNat = (s.readPc.toNat + 4 * n) % 2 ^ s.base.xlen
  base : t.base = s.base
  fault : t.fault = s.fault
  memory : ∀ a : Nat, t.readByte a = s.readByte a
  draws : t.draws = s.draws

/-- `t` is `s` after the Illegal Opcode Exception with the instruction word `w` (60_exceptions.md R204): the fault
record holds the cause, the `pc` and the word, and nothing else has changed. -/
structure Raised (s t : State) (w : Word32) : Prop where
  fault : t.fault = some { cause := Config.illegalCause, epc := s.readPc, tval := w }
  registers : ∀ r : RegIdx, t.readX r = s.readX r
  pc : t.readPc = s.readPc
  base : t.base = s.base
  memory : ∀ a : Nat, t.readByte a = s.readByte a
  draws : t.draws = s.draws

/-- The instruction answers a next state in which it has completed with result `v`, no draw made. -/
def Completes (i : Instr) (s : State) (v : Word64) : Prop :=
  ∃ t : State, exec i s = .next t ∧ Retired s t i.rd v ∧ t.draws = s.draws

/-- The instruction answers a next state in which it has taken the Illegal Opcode Exception with its own word. -/
def Traps (i : Instr) (s : State) : Prop :=
  ∃ t : State, exec i s = .next t ∧ Raised s t (encode i)

/-- A function of the next state, applied where an outcome has one. -/
def onNext (f : State → State) : Host.Outcome State Fault Refusal → Host.Outcome State Fault Refusal
  | .next s => .next (f s)
  | .fault r => .fault r
  | .refused r => .refused r

/-! ### The invariant -/

/-- The sound states: the memory in canonical form and inside the address space, `pc` a multiple of 4 (10_state.md R22,
20_memory.md R44), every cell an XLEN-bit value, and a fault record that says what R204 writes into it: the cause, the
`pc` that still addresses the faulting instruction, and its word, which is no instruction of the base. -/
structure State.Sound (s : State) : Prop where
  memory : memWf s.mem = true
  space : ∀ c ∈ s.mem, c.1 < 2 ^ s.base.xlen
  aligned : s.readPc.toNat % 4 = 0
  pcFits : fitXlen s.base s.pc = s.pc
  cellsFit : ∀ v ∈ s.x.toList, fitXlen s.base v = v
  record : ∀ f : FaultRecord, s.fault = some f →
    f.cause = Config.illegalCause ∧ f.epc = s.readPc ∧ s.fetch = .ok f.tval ∧ resolve s.base f.tval = none

/-! ### Classes of instructions -/

/-- The block-cipher instructions, AES and SM4; the others but the pseudo-ops are hash instructions (30_encoding.md
R69). -/
def isBlockCipher : Instr → Bool
  | .sm4ed _ _ _ _ | .sm4ks _ _ _ _ => true
  | .aes32esmi _ _ _ _ | .aes32esi _ _ _ _ | .aes32dsmi _ _ _ _ | .aes32dsi _ _ _ _ => true
  | .aes64ks1i _ _ _ | .aes64ks2 _ _ _ | .aes64im _ _ => true
  | .aes64esm _ _ _ | .aes64es _ _ _ | .aes64dsm _ _ _ | .aes64ds _ _ _ => true
  | .sm3p0 _ _ | .sm3p1 _ _ => false
  | .sha256sum0 _ _ | .sha256sum1 _ _ | .sha256sig0 _ _ | .sha256sig1 _ _ => false
  | .sha512sum0r _ _ _ | .sha512sum1r _ _ _ => false
  | .sha512sig0l _ _ _ | .sha512sig0h _ _ _ | .sha512sig1l _ _ _ | .sha512sig1h _ _ _ => false
  | .sha512sum0 _ _ | .sha512sum1 _ _ | .sha512sig0 _ _ | .sha512sig1 _ _ => false
  | .pollentropy _ | .getnoise _ => false

/-- The mnemonic of an instruction (30_encoding.md R80). -/
def mnemonic : Instr → String
  | .sm4ed _ _ _ _ => "sm4ed"
  | .sm4ks _ _ _ _ => "sm4ks"
  | .sm3p0 _ _ => "sm3p0"
  | .sm3p1 _ _ => "sm3p1"
  | .sha256sum0 _ _ => "sha256sum0"
  | .sha256sum1 _ _ => "sha256sum1"
  | .sha256sig0 _ _ => "sha256sig0"
  | .sha256sig1 _ _ => "sha256sig1"
  | .aes32esmi _ _ _ _ => "aes32esmi"
  | .aes32esi _ _ _ _ => "aes32esi"
  | .aes32dsmi _ _ _ _ => "aes32dsmi"
  | .aes32dsi _ _ _ _ => "aes32dsi"
  | .sha512sum0r _ _ _ => "sha512sum0r"
  | .sha512sum1r _ _ _ => "sha512sum1r"
  | .sha512sig0l _ _ _ => "sha512sig0l"
  | .sha512sig0h _ _ _ => "sha512sig0h"
  | .sha512sig1l _ _ _ => "sha512sig1l"
  | .sha512sig1h _ _ _ => "sha512sig1h"
  | .aes64ks1i _ _ _ => "aes64ks1i"
  | .aes64ks2 _ _ _ => "aes64ks2"
  | .aes64im _ _ => "aes64im"
  | .aes64esm _ _ _ => "aes64esm"
  | .aes64es _ _ _ => "aes64es"
  | .aes64dsm _ _ _ => "aes64dsm"
  | .aes64ds _ _ _ => "aes64ds"
  | .sha512sum0 _ _ => "sha512sum0"
  | .sha512sum1 _ _ => "sha512sum1"
  | .sha512sig0 _ _ => "sha512sig0"
  | .sha512sig1 _ _ => "sha512sig1"
  | .pollentropy _ => "pollentropy"
  | .getnoise _ => "getnoise"

/-! ### The standards' functions -/

/-- `bswap32`: the four bytes of a word in reverse order (48_crypto_tables.md R199). -/
def bswap32 (w : Word32) : Word32 := byte32 w 0 ++ byte32 w 1 ++ byte32 w 2 ++ byte32 w 3

/-- The SM4 transform `L` (48_crypto_tables.md R199). -/
def sm4L (w : Word32) : Word32 := w ^^^ rol32 w 2 ^^^ rol32 w 10 ^^^ rol32 w 18 ^^^ rol32 w 24

/-- The SM4 key-schedule transform `L'` (48_crypto_tables.md R199). -/
def sm4LPrime (w : Word32) : Word32 := w ^^^ rol32 w 13 ^^^ rol32 w 23

/-- The product in the field of 48_crypto_tables.md R190 of any two bytes: the exclusive-or of `xtime^i(b)` over the
bits `i` of `c` that are 1. -/
def fieldMul (b c : Byte) : Byte :=
  gfmul b (c.extractLsb' 0 4) ^^^ xtime (xtime (xtime (xtime (gfmul b (c.extractLsb' 4 4)))))

/-- The affine map `A` of 48_crypto_tables.md R191, bit `i` being `v[i] ^ v[i+4] ^ v[i+5] ^ v[i+6] ^ v[i+7] ^ c[i]` with
the indices modulo 8 and `c = 0x63`. -/
def aesAffine (v : Byte) : Byte :=
  v ^^^ v.rotateRight 4 ^^^ v.rotateRight 5 ^^^ v.rotateRight 6 ^^^ v.rotateRight 7 ^^^ 0x63#8

/-- Four steps of an accumulating RV32 AES instruction on an accumulator that starts at 0, byte select 0 to 3
(44_aes32.md R144). -/
def columnBy (f : Word32 → Word32 → BitVec 2 → Word32) (w x y z : Word32) : Word32 :=
  f (f (f (f 0#32 w 0#2) x 1#2) y 2#2) z 3#2

/-- Four steps of an accumulating instruction whose `rs2` is its accumulator too: each reads what the one before left
(41_sm4.md R110, "both sources are read before the write"). -/
def selfBy (f : Word32 → Word32 → BitVec 2 → Word32) (a : Word32) : Word32 :=
  let a1 := f a a 0#2
  let a2 := f a1 a1 1#2
  let a3 := f a2 a2 2#2
  f a3 a3 3#2

/-- Runs one instruction after another, each by `exec`, as long as they answer a next state. -/
def execAll : List Instr → State → Host.Outcome State Fault Refusal
  | [], s => .next s
  | i :: rest, s =>
    match exec i s with
    | .next t => execAll rest t
    | .fault f => .fault f
    | .refused r => .refused r

end Sys2Proof.Machine
end

