-- ==== Sys2Proof/Certificates/Slice0/Obligations.lean ====
section
/-! DEFINITION. The statements for the provers. A docstring names the rule of spec/ a statement formalises; where it
rests on a decision the spec marks as its own, or on a choice of the model, the docstring says which. -/

open Sys2Proof Sys2Proof.Machine

/-! ### Encoding -/

/-- Decode and encode agree on every legal instruction of each base, every operand at every value (30_encoding.md, the
opcode map and the decoder; the CSR numbers of the pseudo-ops are OPEN and only differ, log entry 7). -/
def Obligations.DecodeOfEncode : Prop :=
  ∀ (b : Base) (i : Instr), i.wellFormed b = true → decode b (encode i) = .insn i

/-- The other direction: a word that decodes to an instruction is the word of that instruction and of no other, and the
instruction is legal on the base. -/
def Obligations.DecodedWordIsEncodingOfLegalInstr : Prop :=
  ∀ (b : Base) (w : Word32) (i : Instr), decode b w = .insn i → encode i = w ∧ i.wellFormed b = true

/-- The rows of one base are pairwise disjoint: at most one fits a word (30_encoding.md, step 3 of the decoder). -/
def Obligations.AtMostOneRowFits : Prop :=
  ∀ (b : Base) (w : Word32), (opcodeMap.filter (fun r => r.bases.contains b && r.fits w)).length ≤ 1

/-- Every instruction but the pseudo-ops is in the extension's block: major opcode `OP` or `OP-IMM`, func3 `000`, bit 28
set; and the pseudo-ops are not (30_encoding.md, "The extension's block"). -/
def Obligations.InstructionsLieInTheBlock : Prop :=
  ∀ (b : Base) (w : Word32) (i : Instr), decode b w = .insn i →
    (i.isCsrRead = false ↔
      ((w.extractLsb' 0 7 = 0b0110011#7 ∨ w.extractLsb' 0 7 = 0b0010011#7) ∧ w.extractLsb' 12 3 = 0b000#3 ∧
        w.getLsbD 28 = true))

/-- Bit 29 tells block-cipher from hash instructions, bit 28 being set in both (30_encoding.md R69, conflict C1). -/
def Obligations.Bit29TellsBlockCipherFromHash : Prop :=
  ∀ (b : Base) (w : Word32) (i : Instr), decode b w = .insn i → i.isCsrRead = false →
    w.getLsbD 28 = true ∧ w.getLsbD 29 = isBlockCipher i

/-- The same word on the two bases (46_aes64.md, "The same 32-bit word on the two bases"). With bits 31:30 = `00` and an
AES value of bits 29:25 it is the RV32 instruction with `bs = 0`, legal only if `rs1 = rd`, and the RV64 instruction
for any registers; with bits 31:30 = `01` and bits 29:25 = `11001` it is `aes32esi` with `bs = 1` or `aes64ks2`; with
the other non-zero bits 31:30 it is no instruction on RV64. -/
def Obligations.AesWordsOnBothBases : Prop :=
  ∀ (rd rs1 rs2 : RegIdx),
    (decode .rv64 (0b0011011#7 ++ rs2 ++ rs1 ++ 0b000#3 ++ rd ++ 0b0110011#7) = .insn (.aes64esm rd rs1 rs2) ∧
      decode .rv32 (0b0011011#7 ++ rs2 ++ rs1 ++ 0b000#3 ++ rd ++ 0b0110011#7) =
        if rs1 = rd then .insn (.aes32esmi rd rs1 rs2 0#2) else .illegalOpcode) ∧
    (decode .rv64 (0b0011001#7 ++ rs2 ++ rs1 ++ 0b000#3 ++ rd ++ 0b0110011#7) = .insn (.aes64es rd rs1 rs2) ∧
      decode .rv32 (0b0011001#7 ++ rs2 ++ rs1 ++ 0b000#3 ++ rd ++ 0b0110011#7) =
        if rs1 = rd then .insn (.aes32esi rd rs1 rs2 0#2) else .illegalOpcode) ∧
    (decode .rv64 (0b0011111#7 ++ rs2 ++ rs1 ++ 0b000#3 ++ rd ++ 0b0110011#7) = .insn (.aes64dsm rd rs1 rs2) ∧
      decode .rv32 (0b0011111#7 ++ rs2 ++ rs1 ++ 0b000#3 ++ rd ++ 0b0110011#7) =
        if rs1 = rd then .insn (.aes32dsmi rd rs1 rs2 0#2) else .illegalOpcode) ∧
    (decode .rv64 (0b0011101#7 ++ rs2 ++ rs1 ++ 0b000#3 ++ rd ++ 0b0110011#7) = .insn (.aes64ds rd rs1 rs2) ∧
      decode .rv32 (0b0011101#7 ++ rs2 ++ rs1 ++ 0b000#3 ++ rd ++ 0b0110011#7) =
        if rs1 = rd then .insn (.aes32dsi rd rs1 rs2 0#2) else .illegalOpcode) ∧
    (decode .rv64 (0b0111001#7 ++ rs2 ++ rs1 ++ 0b000#3 ++ rd ++ 0b0110011#7) = .insn (.aes64ks2 rd rs1 rs2) ∧
      decode .rv32 (0b0111001#7 ++ rs2 ++ rs1 ++ 0b000#3 ++ rd ++ 0b0110011#7) =
        if rs1 = rd then .insn (.aes32esi rd rs1 rs2 1#2) else .illegalOpcode) ∧
    (∀ (hi : BitVec 2) (f5 : BitVec 5), f5 ∈ [0b11011#5, 0b11001#5, 0b11111#5, 0b11101#5] → hi ≠ 0b00#2 →
      ¬(hi = 0b01#2 ∧ f5 = 0b11001#5) →
      decode .rv64 (hi ++ f5 ++ rs2 ++ rs1 ++ 0b000#3 ++ rd ++ 0b0110011#7) = .notScalarCrypto)

/-- The instructions of one base only are not instructions of the extension on the other: the six RV32 SHA-512 func7
values on RV64, the RV64 SHA-512 selectors and the func7 of `aes64ks1i`, `aes64im` on RV32 (30_encoding.md, reserved
encodings, class (d)). -/
def Obligations.OtherBaseEncodingsAreNotInstructions : Prop :=
  ∀ (rd rs1 rs2 : RegIdx),
    (∀ f7 : BitVec 7, f7 ∈ [0b0101000#7, 0b0101001#7, 0b0101010#7, 0b0101110#7, 0b0101011#7, 0b0101111#7] →
      decode .rv64 (f7 ++ rs2 ++ rs1 ++ 0b000#3 ++ rd ++ 0b0110011#7) = .notScalarCrypto) ∧
    (∀ sel : BitVec 5, sel ∈ [0b00100#5, 0b00101#5, 0b00110#5, 0b00111#5] →
      decode .rv32 (0b0001000#7 ++ sel ++ rs1 ++ 0b000#3 ++ rd ++ 0b0010011#7) = .notScalarCrypto) ∧
    (∀ sel : BitVec 5,
      decode .rv32 (0b0011000#7 ++ sel ++ rs1 ++ 0b000#3 ++ rd ++ 0b0010011#7) = .notScalarCrypto)

/-- The encoding points of the two bases: the totals of the source's table (30_encoding.md, Table of rule R78). On RV32
they are the words that decode to an instruction; on RV64 the words of `aes64ks1i` count with all sixteen values of
`rnum`, as the source counts them, though the decoder rejects five (decision D14). -/
def Obligations.EncodingPointTotals : Prop :=
  Nat.card { w : Word32 // ∃ i : Instr, decode .rv32 w = .insn i ∧ i.isCsrRead = false } = 227328 ∧
    Nat.card { w : Word32 // Row.ks1i.fits w = true ∨ ∃ i : Instr, decode .rv64 w = .insn i ∧ i.isCsrRead = false } =
      199680

/-- A few words written out from the spec's encodings decode to their instructions (95_test_vectors.md, one word per
instruction). -/
def Obligations.WordsFromTheSpecDecode : Prop :=
  decode .rv32 0xb06282b3#32 = .insn (.sm4ed 5 5 6 2) ∧ decode .rv64 0xb46282b3#32 = .insn (.sm4ks 5 5 6 2) ∧
    decode .rv32 0x10858513#32 = .insn (.sm3p0 10 11) ∧ decode .rv64 0x10358513#32 = .insn (.sha256sig1 10 11) ∧
    decode .rv32 0xba6282b3#32 = .insn (.aes32dsi 5 5 6 2) ∧ decode .rv32 0x5ec58533#32 = .insn (.sha512sig1h 10 11 12) ∧
    decode .rv64 0x31a58293#32 = .insn (.aes64ks1i 5 11 10) ∧ decode .rv64 0x3ec58533#32 = .insn (.aes64dsm 10 11 12) ∧
    decode .rv64 0x10758513#32 = .insn (.sha512sig1 10 11)

/-! ### Results, one statement per family -/

/-- `sm4ed` and `sm4ks` (41_sm4.md R110, R111, the semantics by decision D13): their words, their result on either base
with everything else unchanged, and the Illegal Opcode Exception where `rs1` is not `rd`. -/
def Obligations.Sm4Results : Prop :=
  ∀ (s : State) (rd rs1 rs2 : RegIdx) (bs : BitVec 2),
    decode s.base (bs ++ 0b11000#5 ++ rs2 ++ rs1 ++ 0b000#3 ++ rd ++ 0b0110011#7) =
      (if rs1 = rd then .insn (.sm4ed rd rs1 rs2 bs) else .illegalOpcode) ∧
    decode s.base (bs ++ 0b11010#5 ++ rs2 ++ rs1 ++ 0b000#3 ++ rd ++ 0b0110011#7) =
      (if rs1 = rd then .insn (.sm4ks rd rs1 rs2 bs) else .illegalOpcode) ∧
    (rs1 = rd →
      Completes (.sm4ed rd rs1 rs2 bs) s (sextXlen s.base
        (rol32 (sm4LEd (sm4Sbox (byte32 (lo32 (s.readX rs2)) bs.toNat))) (8 * bs.toNat) ^^^ lo32 (s.readX rs1))) ∧
      Completes (.sm4ks rd rs1 rs2 bs) s (sextXlen s.base
        (rol32 (sm4LKs (sm4Sbox (byte32 (lo32 (s.readX rs2)) bs.toNat))) (8 * bs.toNat) ^^^ lo32 (s.readX rs1)))) ∧
    (rs1 ≠ rd → Traps (.sm4ed rd rs1 rs2 bs) s ∧ Traps (.sm4ks rd rs1 rs2 bs) s)

/-- `sm3p0` and `sm3p1` (42_sm3.md R120, R121, the semantics by decision D13): their words, and their result on either
base with everything else unchanged. -/
def Obligations.Sm3Results : Prop :=
  ∀ (s : State) (rd rs1 : RegIdx) (a : Word32), a = lo32 (s.readX rs1) →
    decode s.base (0b0001000#7 ++ 0b01000#5 ++ rs1 ++ 0b000#3 ++ rd ++ 0b0010011#7) = .insn (.sm3p0 rd rs1) ∧
    decode s.base (0b0001000#7 ++ 0b01001#5 ++ rs1 ++ 0b000#3 ++ rd ++ 0b0010011#7) = .insn (.sm3p1 rd rs1) ∧
    Completes (.sm3p0 rd rs1) s (sextXlen s.base (a ^^^ a.rotateLeft 9 ^^^ a.rotateLeft 17)) ∧
    Completes (.sm3p1 rd rs1) s (sextXlen s.base (a ^^^ a.rotateLeft 15 ^^^ a.rotateLeft 23))

/-- The SHA-256 instructions (43_sha256.md R130 to R133, the semantics by decision D13): their words, and their result
on either base with everything else unchanged. -/
def Obligations.Sha256Results : Prop :=
  ∀ (s : State) (rd rs1 : RegIdx) (a : Word32), a = lo32 (s.readX rs1) →
    decode s.base (0b0001000#7 ++ 0b00000#5 ++ rs1 ++ 0b000#3 ++ rd ++ 0b0010011#7) = .insn (.sha256sum0 rd rs1) ∧
    decode s.base (0b0001000#7 ++ 0b00001#5 ++ rs1 ++ 0b000#3 ++ rd ++ 0b0010011#7) = .insn (.sha256sum1 rd rs1) ∧
    decode s.base (0b0001000#7 ++ 0b00010#5 ++ rs1 ++ 0b000#3 ++ rd ++ 0b0010011#7) = .insn (.sha256sig0 rd rs1) ∧
    decode s.base (0b0001000#7 ++ 0b00011#5 ++ rs1 ++ 0b000#3 ++ rd ++ 0b0010011#7) = .insn (.sha256sig1 rd rs1) ∧
    Completes (.sha256sum0 rd rs1) s (sextXlen s.base (a.rotateRight 2 ^^^ a.rotateRight 13 ^^^ a.rotateRight 22)) ∧
    Completes (.sha256sum1 rd rs1) s (sextXlen s.base (a.rotateRight 6 ^^^ a.rotateRight 11 ^^^ a.rotateRight 25)) ∧
    Completes (.sha256sig0 rd rs1) s (sextXlen s.base (a.rotateRight 7 ^^^ a.rotateRight 18 ^^^ (a >>> 3))) ∧
    Completes (.sha256sig1 rd rs1) s (sextXlen s.base (a.rotateRight 17 ^^^ a.rotateRight 19 ^^^ (a >>> 10)))

/-- The RV32 AES instructions (44_aes32.md R140 to R143, the semantics by decision D13): their words on RV32, their
result with everything else unchanged, and the Illegal Opcode Exception where `rs1` is not `rd`. -/
def Obligations.Aes32Results : Prop :=
  ∀ (s : State) (rd rs1 rs2 : RegIdx) (bs : BitVec 2) (a : Word32) (y : Byte), s.base = .rv32 →
    a = lo32 (s.readX rs1) → y = byte32 (lo32 (s.readX rs2)) bs.toNat →
    (decode .rv32 (bs ++ 0b11011#5 ++ rs2 ++ rs1 ++ 0b000#3 ++ rd ++ 0b0110011#7) =
        (if rs1 = rd then .insn (.aes32esmi rd rs1 rs2 bs) else .illegalOpcode) ∧
      decode .rv32 (bs ++ 0b11001#5 ++ rs2 ++ rs1 ++ 0b000#3 ++ rd ++ 0b0110011#7) =
        (if rs1 = rd then .insn (.aes32esi rd rs1 rs2 bs) else .illegalOpcode) ∧
      decode .rv32 (bs ++ 0b11111#5 ++ rs2 ++ rs1 ++ 0b000#3 ++ rd ++ 0b0110011#7) =
        (if rs1 = rd then .insn (.aes32dsmi rd rs1 rs2 bs) else .illegalOpcode) ∧
      decode .rv32 (bs ++ 0b11101#5 ++ rs2 ++ rs1 ++ 0b000#3 ++ rd ++ 0b0110011#7) =
        (if rs1 = rd then .insn (.aes32dsi rd rs1 rs2 bs) else .illegalOpcode)) ∧
    (rs1 = rd →
      Completes (.aes32esmi rd rs1 rs2 bs) s
        ((a ^^^ (aesMixbyteFwd (aesSboxFwd y)).rotateLeft (8 * bs.toNat)).setWidth 64) ∧
      Completes (.aes32esi rd rs1 rs2 bs) s
        ((a ^^^ ((aesSboxFwd y).setWidth 32).rotateLeft (8 * bs.toNat)).setWidth 64) ∧
      Completes (.aes32dsmi rd rs1 rs2 bs) s
        ((a ^^^ (aesMixbyteInv (aesSboxInv y)).rotateLeft (8 * bs.toNat)).setWidth 64) ∧
      Completes (.aes32dsi rd rs1 rs2 bs) s
        ((a ^^^ ((aesSboxInv y).setWidth 32).rotateLeft (8 * bs.toNat)).setWidth 64)) ∧
    (rs1 ≠ rd →
      Traps (.aes32esmi rd rs1 rs2 bs) s ∧ Traps (.aes32esi rd rs1 rs2 bs) s ∧
      Traps (.aes32dsmi rd rs1 rs2 bs) s ∧ Traps (.aes32dsi rd rs1 rs2 bs) s)

/-- The RV32 SHA-512 instructions (45_sha512_rv32.md, their rules' pseudocode; the semantics by decision D13): their
words on RV32, and their result with everything else unchanged. The rules' *Meaning* clauses are the statement
Sha512HalvesPair. -/
def Obligations.Sha512Rv32Results : Prop :=
  ∀ (s : State) (rd rs1 rs2 : RegIdx) (a b : Word32), s.base = .rv32 →
    a = lo32 (s.readX rs1) → b = lo32 (s.readX rs2) →
    (decode .rv32 (0b0101000#7 ++ rs2 ++ rs1 ++ 0b000#3 ++ rd ++ 0b0110011#7) = .insn (.sha512sum0r rd rs1 rs2) ∧
      decode .rv32 (0b0101001#7 ++ rs2 ++ rs1 ++ 0b000#3 ++ rd ++ 0b0110011#7) = .insn (.sha512sum1r rd rs1 rs2) ∧
      decode .rv32 (0b0101010#7 ++ rs2 ++ rs1 ++ 0b000#3 ++ rd ++ 0b0110011#7) = .insn (.sha512sig0l rd rs1 rs2) ∧
      decode .rv32 (0b0101110#7 ++ rs2 ++ rs1 ++ 0b000#3 ++ rd ++ 0b0110011#7) = .insn (.sha512sig0h rd rs1 rs2) ∧
      decode .rv32 (0b0101011#7 ++ rs2 ++ rs1 ++ 0b000#3 ++ rd ++ 0b0110011#7) = .insn (.sha512sig1l rd rs1 rs2) ∧
      decode .rv32 (0b0101111#7 ++ rs2 ++ rs1 ++ 0b000#3 ++ rd ++ 0b0110011#7) = .insn (.sha512sig1h rd rs1 rs2)) ∧
    Completes (.sha512sum0r rd rs1 rs2) s
      (((a <<< 25) ^^^ (a <<< 30) ^^^ (a >>> 28) ^^^ (b >>> 7) ^^^ (b >>> 2) ^^^ (b <<< 4)).setWidth 64) ∧
    Completes (.sha512sum1r rd rs1 rs2) s
      (((a <<< 23) ^^^ (a >>> 14) ^^^ (a >>> 18) ^^^ (b >>> 9) ^^^ (b <<< 18) ^^^ (b <<< 14)).setWidth 64) ∧
    Completes (.sha512sig0l rd rs1 rs2) s
      (((a >>> 1) ^^^ (a >>> 7) ^^^ (a >>> 8) ^^^ (b <<< 31) ^^^ (b <<< 25) ^^^ (b <<< 24)).setWidth 64) ∧
    Completes (.sha512sig0h rd rs1 rs2) s
      (((a >>> 1) ^^^ (a >>> 7) ^^^ (a >>> 8) ^^^ (b <<< 31) ^^^ (b <<< 24)).setWidth 64) ∧
    Completes (.sha512sig1l rd rs1 rs2) s
      (((a <<< 3) ^^^ (a >>> 6) ^^^ (a >>> 19) ^^^ (b >>> 29) ^^^ (b <<< 26) ^^^ (b <<< 13)).setWidth 64) ∧
    Completes (.sha512sig1h rd rs1 rs2) s
      (((a <<< 3) ^^^ (a >>> 6) ^^^ (a >>> 19) ^^^ (b >>> 29) ^^^ (b <<< 13)).setWidth 64)

/-- `aes64ks1i` (46_aes64.md R160, the semantics by decision D13, the range of `rnum` by D14): its words on RV64, its
result for `rnum` up to `0xA` with everything else unchanged, and the Illegal Opcode Exception above. -/
def Obligations.Aes64Ks1iResult : Prop :=
  ∀ (s : State) (rd rs1 : RegIdx) (rnum : BitVec 4) (t u w : Word32), s.base = .rv64 →
    t = hi32 (s.readX rs1) → u = (if rnum = 0xA#4 then t else t.rotateRight 8) →
    w = aesSubwordFwd u ^^^ (aesRcon rnum).setWidth 32 →
    decode .rv64 (0b0011000#7 ++ 0b1#1 ++ rnum ++ rs1 ++ 0b000#3 ++ rd ++ 0b0010011#7) =
      (if rnum.toNat ≤ 10 then .insn (.aes64ks1i rd rs1 rnum) else .illegalOpcode) ∧
    (rnum.toNat ≤ 10 → Completes (.aes64ks1i rd rs1 rnum) s (w ++ w)) ∧
    (10 < rnum.toNat → Traps (.aes64ks1i rd rs1 rnum) s)

/-- `aes64ks2` and `aes64im` (46_aes64.md R161, R162, the semantics by decision D13): their words on RV64, legal for
every `rd`, and their result with everything else unchanged. -/
def Obligations.Aes64Ks2AndImResults : Prop :=
  ∀ (s : State) (rd rs1 rs2 : RegIdx) (a b : Word64), s.base = .rv64 → a = s.readX rs1 → b = s.readX rs2 →
    decode .rv64 (0b0111001#7 ++ rs2 ++ rs1 ++ 0b000#3 ++ rd ++ 0b0110011#7) = .insn (.aes64ks2 rd rs1 rs2) ∧
    decode .rv64 (0b0011000#7 ++ 0b00000#5 ++ rs1 ++ 0b000#3 ++ rd ++ 0b0010011#7) = .insn (.aes64im rd rs1) ∧
    Completes (.aes64ks2 rd rs1 rs2) s ((hi32 a ^^^ lo32 b ^^^ hi32 b) ++ (hi32 a ^^^ lo32 b)) ∧
    Completes (.aes64im rd rs1) s (aesMixcolumnInv (hi32 a) ++ aesMixcolumnInv (lo32 a))

/-- The RV64 AES round instructions (46_aes64.md R163 to R166, the semantics by decision D13): their words on RV64 for
any registers, and their result with everything else unchanged. -/
def Obligations.Aes64RoundResults : Prop :=
  ∀ (s : State) (rd rs1 rs2 : RegIdx) (e d : Word64), s.base = .rv64 →
    e = aesSubbytes8Fwd (aesShiftrowsFwd (s.readX rs2) (s.readX rs1)) →
    d = aesSubbytes8Inv (aesShiftrowsInv (s.readX rs2) (s.readX rs1)) →
    (decode .rv64 (0b0011011#7 ++ rs2 ++ rs1 ++ 0b000#3 ++ rd ++ 0b0110011#7) = .insn (.aes64esm rd rs1 rs2) ∧
      decode .rv64 (0b0011001#7 ++ rs2 ++ rs1 ++ 0b000#3 ++ rd ++ 0b0110011#7) = .insn (.aes64es rd rs1 rs2) ∧
      decode .rv64 (0b0011111#7 ++ rs2 ++ rs1 ++ 0b000#3 ++ rd ++ 0b0110011#7) = .insn (.aes64dsm rd rs1 rs2) ∧
      decode .rv64 (0b0011101#7 ++ rs2 ++ rs1 ++ 0b000#3 ++ rd ++ 0b0110011#7) = .insn (.aes64ds rd rs1 rs2)) ∧
    Completes (.aes64esm rd rs1 rs2) s (aesMixcolumnFwd (hi32 e) ++ aesMixcolumnFwd (lo32 e)) ∧
    Completes (.aes64es rd rs1 rs2) s e ∧
    Completes (.aes64dsm rd rs1 rs2) s (aesMixcolumnInv (hi32 d) ++ aesMixcolumnInv (lo32 d)) ∧
    Completes (.aes64ds rd rs1 rs2) s d

/-- The RV64 SHA-512 instructions (47_sha512_rv64.md R180 to R183, the semantics by decision D13): their words on RV64,
and their result with everything else unchanged. -/
def Obligations.Sha512Rv64Results : Prop :=
  ∀ (s : State) (rd rs1 : RegIdx) (a : Word64), s.base = .rv64 → a = s.readX rs1 →
    decode .rv64 (0b0001000#7 ++ 0b00100#5 ++ rs1 ++ 0b000#3 ++ rd ++ 0b0010011#7) = .insn (.sha512sum0 rd rs1) ∧
    decode .rv64 (0b0001000#7 ++ 0b00101#5 ++ rs1 ++ 0b000#3 ++ rd ++ 0b0010011#7) = .insn (.sha512sum1 rd rs1) ∧
    decode .rv64 (0b0001000#7 ++ 0b00110#5 ++ rs1 ++ 0b000#3 ++ rd ++ 0b0010011#7) = .insn (.sha512sig0 rd rs1) ∧
    decode .rv64 (0b0001000#7 ++ 0b00111#5 ++ rs1 ++ 0b000#3 ++ rd ++ 0b0010011#7) = .insn (.sha512sig1 rd rs1) ∧
    Completes (.sha512sum0 rd rs1) s (a.rotateRight 28 ^^^ a.rotateRight 34 ^^^ a.rotateRight 39) ∧
    Completes (.sha512sum1 rd rs1) s (a.rotateRight 14 ^^^ a.rotateRight 18 ^^^ a.rotateRight 41) ∧
    Completes (.sha512sig0 rd rs1) s (a.rotateRight 1 ^^^ a.rotateRight 8 ^^^ (a >>> 7)) ∧
    Completes (.sha512sig1 rd rs1) s (a.rotateRight 19 ^^^ a.rotateRight 61 ^^^ (a >>> 6))

/-- The pseudo-ops (40_entropy_pseudo_ops.md, decision D12): on either base and with the CSR-read words of their OPEN
numbers, each completes with `x[rd]` holding the draw, whatever it is, and the next draw is another. The draw is the
model's free value (log entry 6), the pattern of the words is log entry 8. -/
def Obligations.EntropyReadResults : Prop :=
  ∀ (s : State) (rd : RegIdx),
    decode s.base (Config.csrPollentropy ++ 0b00000#5 ++ 0b010#3 ++ rd ++ 0b1110011#7) = .insn (.pollentropy rd) ∧
    decode s.base (Config.csrGetnoise ++ 0b00000#5 ++ 0b010#3 ++ rd ++ 0b1110011#7) = .insn (.getnoise rd) ∧
    (∃ t : State, exec (.pollentropy rd) s = .next t ∧
      Retired s t rd (fitXlen s.base (Config.entropyRead s.draws)) ∧ t.draws = s.draws + 1) ∧
    (∃ t : State, exec (.getnoise rd) s = .next t ∧
      Retired s t rd (fitXlen s.base (Config.entropyRead s.draws)) ∧ t.draws = s.draws + 1)

/-! ### The functions and the algorithms they compose into -/

/-- The AES S-boxes (48_crypto_tables.md R191, R192, by decision D13): every byte but 0 has an inverse in the field, the
forward table is the affine map of the inverse, 0 counting as its own, and the inverse table undoes it both ways. -/
def Obligations.AesSboxIsAffineOfFieldInverse : Prop :=
  (∀ b : Byte, b ≠ 0#8 → ∃ c : Byte, fieldMul b c = 1#8) ∧
    (∀ b c : Byte, fieldMul b c = 1#8 → aesSboxFwd b = aesAffine c) ∧ aesSboxFwd 0#8 = aesAffine 0#8 ∧
    (∀ b : Byte, aesSboxInv (aesSboxFwd b) = b ∧ aesSboxFwd (aesSboxInv b) = b)

/-- The laws of the column functions (48_crypto_tables.md, "AES column functions"): InvMixColumns undoes MixColumns,
both are linear over exclusive-or, and on a column with one byte in row 0 they are the byte functions. -/
def Obligations.MixColumnLaws : Prop :=
  (∀ w : Word32, aesMixcolumnInv (aesMixcolumnFwd w) = w) ∧
    (∀ v w : Word32, aesMixcolumnFwd (v ^^^ w) = aesMixcolumnFwd v ^^^ aesMixcolumnFwd w ∧
      aesMixcolumnInv (v ^^^ w) = aesMixcolumnInv v ^^^ aesMixcolumnInv w) ∧
    (∀ y : Byte, aesMixcolumnFwd (y.setWidth 32) = aesMixbyteFwd y ∧
      aesMixcolumnInv (y.setWidth 32) = aesMixbyteInv y)

/-- `aes64im` undoes the MixColumns of `aes64esm` and leaves what `aes64es` computes (95_test_vectors.md, "Inverse
law"). -/
def Obligations.InvMixColumnsUndoesMiddleRound : Prop :=
  ∀ (s : State) (rd rs1 rs2 : RegIdx), s.base = .rv64 →
    ∃ t u v : State, exec (.aes64esm rd rs1 rs2) s = .next t ∧ exec (.aes64im rd rd) t = .next u ∧
      exec (.aes64es rd rs1 rs2) s = .next v ∧ u.readX rd = v.readX rd

/-- The pairing law (45_sha512_rv32.md, marked there as derived): on the two halves of a 64-bit value, each pair of RV32
SHA-512 instructions computes the two halves of what the RV64 instruction computes on the whole. -/
def Obligations.Sha512HalvesPair : Prop :=
  ∀ (s q : State) (rd lo hi r : RegIdx), s.base = .rv32 → q.base = .rv64 → rd ≠ 0#5 →
    q.readX r = lo32 (s.readX hi) ++ lo32 (s.readX lo) →
    (∃ tl th u : State, exec (.sha512sum0r rd lo hi) s = .next tl ∧ exec (.sha512sum0r rd hi lo) s = .next th ∧
      exec (.sha512sum0 rd r) q = .next u ∧ u.readX rd = lo32 (th.readX rd) ++ lo32 (tl.readX rd)) ∧
    (∃ tl th u : State, exec (.sha512sum1r rd lo hi) s = .next tl ∧ exec (.sha512sum1r rd hi lo) s = .next th ∧
      exec (.sha512sum1 rd r) q = .next u ∧ u.readX rd = lo32 (th.readX rd) ++ lo32 (tl.readX rd)) ∧
    (∃ tl th u : State, exec (.sha512sig0l rd lo hi) s = .next tl ∧ exec (.sha512sig0h rd hi lo) s = .next th ∧
      exec (.sha512sig0 rd r) q = .next u ∧ u.readX rd = lo32 (th.readX rd) ++ lo32 (tl.readX rd)) ∧
    (∃ tl th u : State, exec (.sha512sig1l rd lo hi) s = .next tl ∧ exec (.sha512sig1h rd hi lo) s = .next th ∧
      exec (.sha512sig1 rd r) q = .next u ∧ u.readX rd = lo32 (th.readX rd) ++ lo32 (tl.readX rd))

/-- Four `sm4ed` are one SM4 round, four `sm4ks` one step of its key schedule, on byte-reversed words (41_sm4.md, "how
the instructions compose into SM4"): for `rs2` other than `rd` the accumulator is exclusive-ored with `L(tau(t))`.
For `rs2 = rd` each instruction reads what the one before left. In every case, `rd = x0` among them, nothing else
changes but `pc`, which moves by 16. -/
def Obligations.FourSm4StepsAreOneRound : Prop :=
  ∀ (s : State) (rd rs2 : RegIdx),
    (∃ t : State, execAll [.sm4ed rd rd rs2 0#2, .sm4ed rd rd rs2 1#2, .sm4ed rd rd rs2 2#2, .sm4ed rd rd rs2 3#2] s =
        .next t ∧
      RetiredRun 4 s t rd (sextXlen s.base (if rs2 = rd then selfBy semSm4ed (lo32 (s.readX rd))
        else lo32 (s.readX rd) ^^^ bswap32 (sm4L (onBytes4 sm4Sbox (bswap32 (lo32 (s.readX rs2)))))))) ∧
    (∃ t : State, execAll [.sm4ks rd rd rs2 0#2, .sm4ks rd rd rs2 1#2, .sm4ks rd rd rs2 2#2, .sm4ks rd rd rs2 3#2] s =
        .next t ∧
      RetiredRun 4 s t rd (sextXlen s.base (if rs2 = rd then selfBy semSm4ks (lo32 (s.readX rd))
        else lo32 (s.readX rd) ^^^ bswap32 (sm4LPrime (onBytes4 sm4Sbox (bswap32 (lo32 (s.readX rs2))))))))

/-- Four `aes32esmi` make one output column of a middle encryption round and four `aes32dsmi` one of a middle decryption
round, the accumulator holding the round-key word first (44_aes32.md, "how the instructions compose into an AES
round"): row `r` comes from byte `r` of the source register that ShiftRows names for it. Nothing else changes but
`pc`, which moves by 16. -/
def Obligations.FourAes32StepsAreOneColumn : Prop :=
  ∀ (s : State) (rd r0 r1 r2 r3 : RegIdx), s.base = .rv32 → r0 ≠ rd → r1 ≠ rd → r2 ≠ rd → r3 ≠ rd →
    (∃ t : State, execAll [.aes32esmi rd rd r0 0#2, .aes32esmi rd rd r1 1#2, .aes32esmi rd rd r2 2#2,
        .aes32esmi rd rd r3 3#2] s = .next t ∧
      RetiredRun 4 s t rd ((lo32 (s.readX rd) ^^^ aesMixcolumnFwd
        (aesSboxFwd (byte32 (lo32 (s.readX r3)) 3) ++ aesSboxFwd (byte32 (lo32 (s.readX r2)) 2) ++
          aesSboxFwd (byte32 (lo32 (s.readX r1)) 1) ++ aesSboxFwd (byte32 (lo32 (s.readX r0)) 0))).setWidth 64)) ∧
    (∃ t : State, execAll [.aes32dsmi rd rd r0 0#2, .aes32dsmi rd rd r1 1#2, .aes32dsmi rd rd r2 2#2,
        .aes32dsmi rd rd r3 3#2] s = .next t ∧
      RetiredRun 4 s t rd ((lo32 (s.readX rd) ^^^ aesMixcolumnInv
        (aesSboxInv (byte32 (lo32 (s.readX r3)) 3) ++ aesSboxInv (byte32 (lo32 (s.readX r2)) 2) ++
          aesSboxInv (byte32 (lo32 (s.readX r1)) 1) ++ aesSboxInv (byte32 (lo32 (s.readX r0)) 0))).setWidth 64))

/-- The two designs of an AES round agree: what each RV64 round instruction computes of the columns `c0` to `c3` is what
four RV32 instructions per column compute, the source columns being those of ShiftRows or InvShiftRows (44_aes32.md
and 46_aes64.md, "how the instructions compose"). It speaks of the functions the meanings apply, which
Aes32Results and Aes64RoundResults tie to `exec`. -/
def Obligations.Aes64RoundsEqualAes32Columns : Prop :=
  ∀ c0 c1 c2 c3 : Word32,
    semAes64esm (c1 ++ c0) (c3 ++ c2) = columnBy semAes32esmi c1 c2 c3 c0 ++ columnBy semAes32esmi c0 c1 c2 c3 ∧
    semAes64es (c1 ++ c0) (c3 ++ c2) = columnBy semAes32esi c1 c2 c3 c0 ++ columnBy semAes32esi c0 c1 c2 c3 ∧
    semAes64dsm (c1 ++ c0) (c3 ++ c2) = columnBy semAes32dsmi c1 c0 c3 c2 ++ columnBy semAes32dsmi c0 c3 c2 c1 ∧
    semAes64ds (c1 ++ c0) (c3 ++ c2) = columnBy semAes32dsi c1 c0 c3 c2 ++ columnBy semAes32dsi c0 c3 c2 c1

/-! ### Steps, exceptions, fetch -/

/-- When the four bytes at `pc` decode to an instruction, a step is that instruction's meaning: `exec` moves `pc` itself
and the step adds nothing to it (20_memory.md, fetch; 30_encoding.md, the decoder). -/
def Obligations.StepRunsDecodedInstruction : Prop :=
  ∀ (s : State) (b0 b1 b2 b3 : Byte) (i : Instr), s.fault = none → s.readPc.toNat % 4 = 0 →
    s.readByte s.readPc.toNat = some b0 → s.readByte (s.readPc.toNat + 1) = some b1 →
    s.readByte (s.readPc.toNat + 2) = some b2 → s.readByte (s.readPc.toNat + 3) = some b3 →
    decodeBytes s.base [b0, b1, b2, b3] = some (.insn i, []) → step s = exec i s

/-- Fetch (20_memory.md R42, R43, by decisions D18, D19): the little-endian word of the four bytes at `pc` where `pc` is a
multiple of 4 and the memory is defined there, and otherwise the machine is stuck. -/
def Obligations.FetchIsLittleEndianOrStuck : Prop :=
  ∀ s : State, s.fault = none →
    (s.readPc.toNat % 4 ≠ 0 → step s = .fault .misalignedFetch) ∧
    (s.readPc.toNat % 4 = 0 → (∃ k : Nat, k < 4 ∧ s.readByte (s.readPc.toNat + k) = none) →
      step s = .fault .unmappedFetch) ∧
    (s.readPc.toNat % 4 = 0 → ∀ b0 b1 b2 b3 : Byte, s.readByte s.readPc.toNat = some b0 →
      s.readByte (s.readPc.toNat + 1) = some b1 → s.readByte (s.readPc.toNat + 2) = some b2 →
      s.readByte (s.readPc.toNat + 3) = some b3 → s.fetch = .ok (b3 ++ b2 ++ b1 ++ b0))

/-- Taking the Illegal Opcode Exception (60_exceptions.md R204, by decision D15): a word that the decoder rejects fills
the fault record with the cause, the `pc` and the word, changes nothing else, and ends the run. -/
def Obligations.IllegalWordFillsFaultRecordAndEndsRun : Prop :=
  ∀ (s : State) (w : Word32), s.fault = none → s.fetch = .ok w →
    (decode s.base w = .illegalOpcode ∨ decode s.base w = .notScalarCrypto) →
    ∃ t : State, step s = .next t ∧ Raised s t w ∧ step t = .fault .runEnded

/-- The `rs1 = rd` requirement (30_encoding.md R76), at a step: a word with the fixed bits of an SM4 instruction, or on
RV32 of an AES instruction, decodes to that row's instruction and completes with its `rd` field as destination where
the two 5-bit fields are equal, 0 among them, and takes the Illegal Opcode Exception where they are not. On RV64 a
word with the fixed bits of an AES instruction of two sources is that instruction whatever its fields are. -/
def Obligations.UnequalRs1RdIsIllegal : Prop :=
  ∀ (s : State) (w : Word32) (rd rs1 rs2 : RegIdx) (bs : BitVec 2) (i : Instr), s.fault = none → s.fetch = .ok w →
    rd = w.extractLsb' 7 5 → rs1 = w.extractLsb' 15 5 → rs2 = w.extractLsb' 20 5 → bs = w.extractLsb' 30 2 →
    (((w &&& 0x3e00707f#32 = 0x30000033#32 ∧ i = .sm4ed rd rs1 rs2 bs) ∨
      (w &&& 0x3e00707f#32 = 0x34000033#32 ∧ i = .sm4ks rd rs1 rs2 bs) ∨
      (s.base = .rv32 ∧
        ((w &&& 0x3e00707f#32 = 0x36000033#32 ∧ i = .aes32esmi rd rs1 rs2 bs) ∨
          (w &&& 0x3e00707f#32 = 0x32000033#32 ∧ i = .aes32esi rd rs1 rs2 bs) ∨
          (w &&& 0x3e00707f#32 = 0x3e000033#32 ∧ i = .aes32dsmi rd rs1 rs2 bs) ∨
          (w &&& 0x3e00707f#32 = 0x3a000033#32 ∧ i = .aes32dsi rd rs1 rs2 bs)))) →
      (rs1 = rd → decode s.base w = .insn i ∧
        ∃ (t : State) (v : Word64), step s = .next t ∧ exec i s = .next t ∧ Retired s t rd v) ∧
      (rs1 ≠ rd → decode s.base w = .illegalOpcode ∧ ∃ t : State, step s = .next t ∧ Raised s t w)) ∧
    (s.base = .rv64 →
      ((w &&& 0xfe00707f#32 = 0x36000033#32 ∧ i = .aes64esm rd rs1 rs2) ∨
        (w &&& 0xfe00707f#32 = 0x32000033#32 ∧ i = .aes64es rd rs1 rs2) ∨
        (w &&& 0xfe00707f#32 = 0x3e000033#32 ∧ i = .aes64dsm rd rs1 rs2) ∨
        (w &&& 0xfe00707f#32 = 0x3a000033#32 ∧ i = .aes64ds rd rs1 rs2) ∨
        (w &&& 0xfe00707f#32 = 0x72000033#32 ∧ i = .aes64ks2 rd rs1 rs2)) →
      decode s.base w = .insn i ∧
        ∃ (t : State) (v : Word64), step s = .next t ∧ exec i s = .next t ∧ Retired s t rd v)

/-- All that a step can do (10_state.md, 60_exceptions.md: one exception, no interrupt, no other event): it never
refuses, it stops only on an ended run or a fetch that cannot be performed, and a next state is the completion of the
instruction fetched, with a draw only for a pseudo-op, or the exception with the word fetched. -/
def Obligations.StepCompletesOrTrapsOrIsStuck : Prop :=
  ∀ s : State,
    (∀ r : Refusal, step s ≠ .refused r) ∧
    (∀ f : Fault, step s = .fault f → (s.fault ≠ none ∧ f = .runEnded) ∨ (s.fault = none ∧ s.fetch = .error f)) ∧
    (∀ t : State, step s = .next t → s.fault = none ∧ ∃ w : Word32, s.fetch = .ok w ∧
      ((∃ (i : Instr) (v : Word64), decode s.base w = .insn i ∧ Retired s t i.rd v ∧
          t.draws = s.draws + (if i.isCsrRead then 1 else 0)) ∨
        ((∀ i : Instr, decode s.base w ≠ .insn i) ∧ Raised s t w)))

/-- Loading a word where the next step fetches makes that step run it (the model's load, log entry 5): the base is the
one on which the word is an instruction, the registers and the draws stay, and so does every byte outside the four at
`pc`. -/
def Obligations.LoadedWordRunsNext : Prop :=
  ∀ (s : State) (w : Word32) (i : Instr), decode (baseFor s.base w) w = .insn i →
    step (s.withFetchWord 32 w.toNat) = exec i (s.withFetchWord 32 w.toNat) ∧
    (s.withFetchWord 32 w.toNat).x = s.x ∧ (s.withFetchWord 32 w.toNat).draws = s.draws ∧
    ∀ a : Nat, (a < (s.withFetchWord 32 w.toNat).readPc.toNat ∨ (s.withFetchWord 32 w.toNat).readPc.toNat + 4 ≤ a) →
      (s.withFetchWord 32 w.toNat).readByte a = s.readByte a

/-! ### Whole-machine rules -/

/-- Every legal instruction completes: `pc` moves on by 4 and the fault record stays (10_state.md, "Advancing `pc`"). -/
def Obligations.EveryLegalInstructionCompletes : Prop :=
  ∀ (i : Instr) (s : State), i.wellFormed s.base = true →
    ∃ (t : State) (v : Word64), exec i s = .next t ∧ Retired s t i.rd v

/-- An instruction that is not one of the state's base, or whose fields its encoding forbids, takes the Illegal Opcode
Exception with its own word (the model's choice for what no step reaches, log entry 12). -/
def Obligations.IllFormedInstructionTraps : Prop :=
  ∀ (i : Instr) (s : State), i.wellFormed s.base = false → Traps i s

/-- No instruction writes a register it does not name as its destination, and none stores (10_state.md, "General
registers"; 20_memory.md, "Data memory"): legal or not. -/
def Obligations.OnlyTheDestinationChanges : Prop :=
  ∀ (i : Instr) (s t : State), exec i s = .next t →
    (∀ r : RegIdx, r ≠ i.rd → t.readX r = s.readX r) ∧ (∀ a : Nat, t.readByte a = s.readByte a) ∧
      t.base = s.base ∧ (i.isCsrRead = false → t.draws = s.draws)

/-- No instruction reads a register it does not name (10_state.md, "General registers"): writing any value to a register
that is neither a source nor the destination changes the outcome in that register alone. -/
def Obligations.UnnamedRegistersDoNotMatter : Prop :=
  ∀ (i : Instr) (s : State) (r : RegIdx) (v : Word64), r ∉ i.sources → r ≠ i.rd →
    exec i (s.writeX r v) = onNext (fun t => t.writeX r v) (exec i s)

/-- Only the pseudo-ops depend on the draws (10_state.md, "Hidden state"): any other instruction has the same outcome
whatever the count of draws, up to that count. -/
def Obligations.OnlyPseudoOpsDependOnDraws : Prop :=
  ∀ (i : Instr) (s : State) (n : Nat), i.isCsrRead = false →
    exec i { s with draws := n } = onNext (fun t => { t with draws := n }) (exec i s)

/-- An instruction on 32-bit data that runs on RV64 reads bits 31:0 of its sources and writes the sign extension of its
32-bit result (00_scope.md, "Integer arithmetic", by decision D13): SM4, SM3 and SHA-256, the instructions of both
bases. -/
def Obligations.UpperHalvesAreIgnoredOnRv64 : Prop :=
  ∀ (i : Instr) (s q : State), s.base = .rv64 → q.base = .rv64 → i.isCsrRead = false → i.onBase .rv32 = true →
    i.wellFormed .rv64 = true → (∀ r ∈ i.sources, lo32 (s.readX r) = lo32 (q.readX r)) →
    ∃ t u : State, exec i s = .next t ∧ exec i q = .next u ∧ t.readX i.rd = u.readX i.rd ∧
      t.readX i.rd = (lo32 (t.readX i.rd)).signExtend 64

/-- `x[0]` (10_state.md, "Register `x0`", by decisions D17, D23): it reads zero, a write to it is discarded, and every
legal instruction with `rd = x0` completes and changes no register. -/
def Obligations.RegisterZeroIsHardwired : Prop :=
  ∀ s : State, s.readX 0#5 = 0#64 ∧ (∀ v : Word64, s.writeX 0#5 v = s) ∧
    ∀ i : Instr, i.rd = 0#5 → i.wellFormed s.base = true →
      ∃ t : State, exec i s = .next t ∧ (∀ r : RegIdx, t.readX r = s.readX r) ∧
        t.readPc.toNat = (s.readPc.toNat + 4) % 2 ^ s.base.xlen ∧ t.fault = s.fault

/-- The base and the instruction memory are fixed for the run (00_scope.md, "`XLEN` is fixed for a whole run";
20_memory.md, "fixed for the whole run"). -/
def Obligations.BaseAndMemoryAreFixedForTheRun : Prop :=
  ∀ (n : Nat) (s t : State), Sys2Proof.core.run n s = .next t → t.base = s.base ∧ t.mem = s.mem

/-- Every step keeps a sound state sound: the memory in canonical form and inside the address space, `pc` aligned, the
cells XLEN-bit values, and a fault record that names the illegal word still addressed by `pc` (10_state.md, 20_memory.md
"Alignment", 60_exceptions.md "Trap entry"). -/
def Obligations.StepKeepsStateSound : Prop :=
  ∀ s t : State, s.Sound → step s = .next t → t.Sound

/-- The reset state is sound, and so is every launch state whose choices are (70_reset_and_hazards.md; the reset values
are the model's, log entries 1, 3, 4, 5). -/
def Obligations.ResetAndLaunchStatesAreSound : Prop :=
  State.reset.Sound ∧
    ∀ (b : Base) (pc : Word64) (x : Vector Word64 31) (m : List Host.Cell), memWf m = true →
      (∀ c ∈ m, c.1 < 2 ^ b.xlen) → fitXlen b pc = pc → pc.toNat % 4 = 0 → (∀ v ∈ x.toList, fitXlen b v = v) →
      (State.launch b pc x m).Sound

/-- The initial state (10_state.md R29, 70_reset_and_hazards.md R230, by decision D20), with what the spec leaves open
left open: for either base, every `RESET_PC`, every memory and every choice of values of `x[1..31]` there is a launch
state with them, and in each of them `x[0]` is 0 and the fault record is empty. -/
def Obligations.LaunchStateLeavesRegistersOpen : Prop :=
  ∀ (b : Base) (pc : Word64) (m : List Host.Cell) (values : RegIdx → Word64), ∃ x : Vector Word64 31,
    (State.launch b pc x m).readX 0#5 = 0#64 ∧
    (∀ r : RegIdx, r ≠ 0#5 → (State.launch b pc x m).readX r = fitXlen b (values r)) ∧
    (State.launch b pc x m).readPc = fitXlen b pc ∧ (State.launch b pc x m).fault = none ∧
    ∀ a : Nat, (State.launch b pc x m).readByte a = memByte m a

/-- The model's own reset values (DESIGN CHOICE, log entries 1, 3, 4, 5): RV64, `pc` at `0x1000`, every register 0, the
fault record empty, no memory placed, so that a step from it is stuck until the platform loads a word. -/
def Obligations.ResetValuesTheModelNames : Prop :=
  State.reset.base = .rv64 ∧ State.reset.readPc = 0x1000#64 ∧ (∀ r : RegIdx, State.reset.readX r = 0#64) ∧
    State.reset.fault = none ∧ (∀ a : Nat, State.reset.readByte a = none) ∧
    step State.reset = .fault .unmappedFetch

/-- A straight line of instructions runs to its end (70_reset_and_hazards.md, "End of a run"): from a state whose run has
not ended, where the `n` words from `pc` up are instructions of the base, `n` steps lead to the `pc` after them with
the fault record empty; if no word stands there, the next step is stuck. A line may end exactly at the end of the
address space, where `pc` wraps to 0 (10_state.md, "Program counter"). -/
def Obligations.StraightLineRunsToItsEnd : Prop :=
  ∀ (n : Nat) (s : State), s.fault = none → s.readPc.toNat % 4 = 0 → s.readPc.toNat + 4 * n ≤ 2 ^ s.base.xlen →
    (∀ k : Nat, k < n → ∃ (w : Word32) (i : Instr),
      memWord s.mem (s.readPc.toNat + 4 * k) = some w ∧ decode s.base w = .insn i) →
    ∃ t : State, Sys2Proof.core.run n s = .next t ∧
      t.readPc.toNat = (s.readPc.toNat + 4 * n) % 2 ^ s.base.xlen ∧ t.fault = none ∧
      (memWord s.mem ((s.readPc.toNat + 4 * n) % 2 ^ s.base.xlen) = none → step t = .fault .unmappedFetch)
end

