-- ==== Sys2Proof/Laws/Decode.lean ====
section
/-! SUPPORT. The formats, the opcode map and the decoder: each format has its row's fixed bits and gives its fields
back, and a word fits at most one row of a base. -/

namespace Sys2Proof

/-! ### Fixed bits -/

theorem and_append4 {u v w x : Nat} (a a' : BitVec u) (b b' : BitVec v) (c c' : BitVec w) (d d' : BitVec x) :
    (a ++ b ++ c ++ d) &&& (a' ++ b' ++ c' ++ d') = (a &&& a') ++ (b &&& b') ++ (c &&& c') ++ (d &&& d') := by
  simp only [BitVec.and_append]

theorem and_append6 {u v w x y z : Nat} (a a' : BitVec u) (b b' : BitVec v) (c c' : BitVec w) (d d' : BitVec x)
    (e e' : BitVec y) (f f' : BitVec z) :
    (a ++ b ++ c ++ d ++ e ++ f) &&& (a' ++ b' ++ c' ++ d' ++ e' ++ f') =
      (a &&& a') ++ (b &&& b') ++ (c &&& c') ++ (d &&& d') ++ (e &&& e') ++ (f &&& f') := by
  simp only [BitVec.and_append]

theorem and_append7 {t u v w x y z : Nat} (o o' : BitVec t) (a a' : BitVec u) (b b' : BitVec v) (c c' : BitVec w)
    (d d' : BitVec x) (e e' : BitVec y) (f f' : BitVec z) :
    (o ++ a ++ b ++ c ++ d ++ e ++ f) &&& (o' ++ a' ++ b' ++ c' ++ d' ++ e' ++ f') =
      (o &&& o') ++ (a &&& a') ++ (b &&& b') ++ (c &&& c') ++ (d &&& d') ++ (e &&& e') ++ (f &&& f') := by
  simp only [BitVec.and_append]

theorem and_ones7 (x : BitVec 7) : x &&& 0b1111111#7 = x := by revert x; decide
theorem and_ones5 (x : BitVec 5) : x &&& 0b11111#5 = x := by revert x; decide
theorem and_ones3 (x : BitVec 3) : x &&& 0b111#3 = x := by revert x; decide
theorem and_ones1 (x : BitVec 1) : x &&& 0b1#1 = x := by revert x; decide
theorem and_zeros {n : Nat} (x : BitVec n) : x &&& 0#n = 0#n := by simp

theorem Row.rbs_fits (bases : List Base) (f5 : BitVec 5) (mk : RegIdx → RegIdx → RegIdx → BitVec 2 → Instr)
    (bs : BitVec 2) (rs2 rs1 rd : RegIdx) : (Row.rbs bases f5 mk).fits (wordRbs bs f5 rs2 rs1 rd) = true := by
  refine beq_iff_eq.mpr ((and_append7 bs 0#2 f5 0b11111#5 rs2 0#5 rs1 0#5 Config.f3Op 0b111#3 rd 0#5
    Config.opOp 0b1111111#7).trans ?_)
  rw [and_ones7, and_zeros, and_zeros, and_zeros, and_zeros, and_ones3, and_ones5]
  rfl

theorem Row.r_fits (bases : List Base) (f7 : BitVec 7) (mk : RegIdx → RegIdx → RegIdx → Instr)
    (rs2 rs1 rd : RegIdx) : (Row.r bases f7 mk).fits (wordR f7 rs2 rs1 rd) = true := by
  refine beq_iff_eq.mpr ((and_append6 f7 0b1111111#7 rs2 0#5 rs1 0#5 Config.f3Op 0b111#3 rd 0#5
    Config.opOp 0b1111111#7).trans ?_)
  rw [and_ones7, and_zeros, and_zeros, and_ones3, and_zeros, and_ones7]
  rfl

theorem Row.i_fits (bases : List Base) (f7 : BitVec 7) (sel : BitVec 5) (mk : RegIdx → RegIdx → Instr)
    (rs1 rd : RegIdx) : (Row.i bases f7 sel mk).fits (wordI f7 sel rs1 rd) = true := by
  refine beq_iff_eq.mpr ((and_append6 f7 0b1111111#7 sel 0b11111#5 rs1 0#5 Config.f3OpImm 0b111#3 rd 0#5
    Config.opOpImm 0b1111111#7).trans ?_)
  rw [and_ones7, and_ones5, and_zeros, and_ones3, and_zeros, and_ones7]
  rfl

theorem Row.ks1i_fits (rnum : BitVec 4) (rs1 rd : RegIdx) : Row.ks1i.fits (wordKs1i rnum rs1 rd) = true := by
  refine beq_iff_eq.mpr ((and_append7 Config.f7AesImm 0b1111111#7 Config.ks1iTag 0b1#1 rnum 0#4 rs1 0#5
    Config.f3OpImm 0b111#3 rd 0#5 Config.opOpImm 0b1111111#7).trans ?_)
  rw [and_ones7, and_ones1, and_zeros, and_zeros, and_ones3, and_zeros, and_ones7]
  rfl

/-! ### Fields -/

section Fields

variable (bs : BitVec 2) (f5 : BitVec 5) (f7 : BitVec 7) (sel : BitVec 5) (rnum : BitVec 4) (csr : CsrNum)
  (rs2 rs1 rd : RegIdx)

@[simp] theorem rdOf_wordRbs : rdOf (wordRbs bs f5 rs2 rs1 rd) = rd := by
  unfold rdOf wordRbs
  rw [BitVec.extractLsb'_append_eq_of_le (by omega), BitVec.extractLsb'_append_eq_of_add_le (by omega)]
  simp
@[simp] theorem rs1Of_wordRbs : rs1Of (wordRbs bs f5 rs2 rs1 rd) = rs1 := by
  unfold rs1Of wordRbs
  iterate 3 rw [BitVec.extractLsb'_append_eq_of_le (by omega)]
  rw [BitVec.extractLsb'_append_eq_of_add_le (by omega)]
  simp
@[simp] theorem rs2Of_wordRbs : rs2Of (wordRbs bs f5 rs2 rs1 rd) = rs2 := by
  unfold rs2Of wordRbs
  iterate 4 rw [BitVec.extractLsb'_append_eq_of_le (by omega)]
  rw [BitVec.extractLsb'_append_eq_of_add_le (by omega)]
  simp
@[simp] theorem bsOf_wordRbs : bsOf (wordRbs bs f5 rs2 rs1 rd) = bs := by
  unfold bsOf wordRbs
  iterate 6 rw [BitVec.extractLsb'_append_eq_of_le (by omega)]
  simp

@[simp] theorem rdOf_wordR : rdOf (wordR f7 rs2 rs1 rd) = rd := by
  unfold rdOf wordR
  rw [BitVec.extractLsb'_append_eq_of_le (by omega), BitVec.extractLsb'_append_eq_of_add_le (by omega)]
  simp
@[simp] theorem rs1Of_wordR : rs1Of (wordR f7 rs2 rs1 rd) = rs1 := by
  unfold rs1Of wordR
  iterate 3 rw [BitVec.extractLsb'_append_eq_of_le (by omega)]
  rw [BitVec.extractLsb'_append_eq_of_add_le (by omega)]
  simp
@[simp] theorem rs2Of_wordR : rs2Of (wordR f7 rs2 rs1 rd) = rs2 := by
  unfold rs2Of wordR
  iterate 4 rw [BitVec.extractLsb'_append_eq_of_le (by omega)]
  rw [BitVec.extractLsb'_append_eq_of_add_le (by omega)]
  simp

@[simp] theorem rdOf_wordI : rdOf (wordI f7 sel rs1 rd) = rd := by
  unfold rdOf wordI
  rw [BitVec.extractLsb'_append_eq_of_le (by omega), BitVec.extractLsb'_append_eq_of_add_le (by omega)]
  simp
@[simp] theorem rs1Of_wordI : rs1Of (wordI f7 sel rs1 rd) = rs1 := by
  unfold rs1Of wordI
  iterate 3 rw [BitVec.extractLsb'_append_eq_of_le (by omega)]
  rw [BitVec.extractLsb'_append_eq_of_add_le (by omega)]
  simp

@[simp] theorem rdOf_wordKs1i : rdOf (wordKs1i rnum rs1 rd) = rd := by
  unfold rdOf wordKs1i
  rw [BitVec.extractLsb'_append_eq_of_le (by omega), BitVec.extractLsb'_append_eq_of_add_le (by omega)]
  simp
@[simp] theorem rs1Of_wordKs1i : rs1Of (wordKs1i rnum rs1 rd) = rs1 := by
  unfold rs1Of wordKs1i
  iterate 3 rw [BitVec.extractLsb'_append_eq_of_le (by omega)]
  rw [BitVec.extractLsb'_append_eq_of_add_le (by omega)]
  simp
@[simp] theorem rnumOf_wordKs1i : rnumOf (wordKs1i rnum rs1 rd) = rnum := by
  unfold rnumOf wordKs1i
  iterate 4 rw [BitVec.extractLsb'_append_eq_of_le (by omega)]
  rw [BitVec.extractLsb'_append_eq_of_add_le (by omega)]
  simp

@[simp] theorem rdOf_wordCsrRead : rdOf (wordCsrRead csr rd) = rd := by
  unfold rdOf wordCsrRead
  rw [BitVec.extractLsb'_append_eq_of_le (by omega), BitVec.extractLsb'_append_eq_of_add_le (by omega)]
  simp
@[simp] theorem csrOf_wordCsrRead : csrOf (wordCsrRead csr rd) = csr := by
  unfold csrOf wordCsrRead
  iterate 3 rw [BitVec.extractLsb'_append_eq_of_le (by omega)]
  simp
theorem opcode_wordCsrRead : (wordCsrRead csr rd).extractLsb' 0 7 = Config.opSystem := by
  unfold wordCsrRead
  rw [BitVec.extractLsb'_append_eq_of_add_le (by omega)]
  simp
theorem middle_wordCsrRead : (wordCsrRead csr rd).extractLsb' 12 8 = Config.csrReadMid := by
  unfold wordCsrRead
  iterate 2 rw [BitVec.extractLsb'_append_eq_of_le (by omega)]
  rw [BitVec.extractLsb'_append_eq_of_add_le (by omega)]
  simp

end Fields

/-! ### One row at most -/

/-- Two rows have no base in common, or differ in a bit that both fix. -/
def Row.apart (r q : Row) : Bool :=
  !(r.bases.any q.bases.contains) || !((r.patt ^^^ q.patt) &&& (r.mask &&& q.mask) == 0#32)

theorem opcodeMap_apart : opcodeMap.Pairwise (fun r q => r.apart q = true) := by decide

/-- Two rows that are apart never both fit a word on one base. -/
theorem Row.not_both_fit {r q : Row} (h : r.apart q = true) (b : Base) (w : Word32)
    (hr : (r.bases.contains b && r.fits w) = true) (hq : (q.bases.contains b && q.fits w) = true) : False := by
  simp only [Bool.and_eq_true, Row.fits, beq_iff_eq] at hr hq
  simp only [Row.apart, Bool.or_eq_true, Bool.not_eq_true', List.any_eq_false, beq_eq_false_iff_ne] at h
  rcases h with h | h
  · exact h b (by simpa using hr.1) (by simpa using hq.1)
  · apply h
    rw [← hr.2, ← hq.2]
    ext i hi
    simp only [BitVec.getElem_and, BitVec.getElem_xor, BitVec.getElem_zero]
    cases w[i] <;> cases r.mask[i] <;> cases q.mask[i] <;> rfl

theorem find?_of_unique {p : Row → Bool} {l : List Row} (hl : l.Pairwise (fun r q => ¬(p r = true ∧ p q = true)))
    {r : Row} (hr : r ∈ l) (hp : p r = true) : l.find? p = some r := by
  induction l with
  | nil => cases hr
  | cons q rest ih =>
    rw [List.pairwise_cons] at hl
    rcases List.mem_cons.mp hr with rfl | hr
    · simp [hp]
    · have hq : p q = false := Bool.eq_false_iff.mpr fun e => hl.1 r hr ⟨e, hp⟩
      simp [hq, ih hl.2 hr]

/-- A word that fits a row of the base is decoded by that row. -/
theorem decode_of_fits {b : Base} {w : Word32} {r : Row} (hr : r ∈ opcodeMap) (hb : r.bases.contains b = true)
    (hw : r.fits w = true) :
    decode b w = if (r.make w).fieldsLegal then .insn (r.make w) else .illegalOpcode := by
  have hf : opcodeMap.find? (fun r => r.bases.contains b && r.fits w) = some r :=
    find?_of_unique (opcodeMap_apart.imp fun h => fun ⟨a, c⟩ => Row.not_both_fit h b w a c) hr (by rw [hb, hw]; rfl)
  unfold decode
  rw [hf]

/-- A word that fits no row of the base is read as a CSR read or not at all. -/
theorem decode_of_no_fit {b : Base} {w : Word32}
    (h : ∀ r ∈ opcodeMap, r.bases.contains b = true → r.fits w = false) : decode b w = decodeCsrRead w := by
  have hf : opcodeMap.find? (fun r => r.bases.contains b && r.fits w) = none := by
    rw [List.find?_eq_none]
    intro r hr hp
    simp only [Bool.and_eq_true] at hp
    rw [h r hr hp.1] at hp
    exact Bool.false_ne_true hp.2
  unfold decode
  rw [hf]

/-- No row of the opcode map has the major opcode of the CSR instructions. -/
theorem opcodeMap_opcode : opcodeMap.all (fun r =>
    (r.mask.extractLsb' 0 7 == 0b1111111#7) && !(r.patt.extractLsb' 0 7 == Config.opSystem)) = true := by decide

end Sys2Proof
end

