-- ==== Sys2Proof/Laws/State.lean ====
section
/-! SUPPORT. One lemma per field per update of the state, so that no proof unfolds a record update. -/

namespace Sys2Proof.Machine

variable (s : State)

/-! ### `advancePc` -/

@[simp] theorem State.advancePc_base : s.advancePc.base = s.base := rfl
@[simp] theorem State.advancePc_x : s.advancePc.x = s.x := rfl
@[simp] theorem State.advancePc_pc : s.advancePc.pc = s.nextPc := rfl
@[simp] theorem State.advancePc_fault : s.advancePc.fault = s.fault := rfl
@[simp] theorem State.advancePc_mem : s.advancePc.mem = s.mem := rfl
@[simp] theorem State.advancePc_draws : s.advancePc.draws = s.draws := rfl

/-! ### `afterDraw` -/

@[simp] theorem State.afterDraw_base : s.afterDraw.base = s.base := rfl
@[simp] theorem State.afterDraw_x : s.afterDraw.x = s.x := rfl
@[simp] theorem State.afterDraw_pc : s.afterDraw.pc = s.pc := rfl
@[simp] theorem State.afterDraw_fault : s.afterDraw.fault = s.fault := rfl
@[simp] theorem State.afterDraw_mem : s.afterDraw.mem = s.mem := rfl
@[simp] theorem State.afterDraw_draws : s.afterDraw.draws = s.draws + 1 := rfl

/-! ### `raiseIllegal` -/

@[simp] theorem State.raiseIllegal_base (w : Word32) : (s.raiseIllegal w).base = s.base := rfl
@[simp] theorem State.raiseIllegal_x (w : Word32) : (s.raiseIllegal w).x = s.x := rfl
@[simp] theorem State.raiseIllegal_pc (w : Word32) : (s.raiseIllegal w).pc = s.pc := rfl
@[simp] theorem State.raiseIllegal_fault (w : Word32) :
    (s.raiseIllegal w).fault = some { cause := Config.illegalCause, epc := s.readPc, tval := w } := rfl
@[simp] theorem State.raiseIllegal_mem (w : Word32) : (s.raiseIllegal w).mem = s.mem := rfl
@[simp] theorem State.raiseIllegal_draws (w : Word32) : (s.raiseIllegal w).draws = s.draws := rfl

/-! ### `writeX` -/

@[simp] theorem State.writeX_base (r : RegIdx) (v : Word64) : (s.writeX r v).base = s.base := by
  unfold State.writeX; split <;> rfl
@[simp] theorem State.writeX_pc (r : RegIdx) (v : Word64) : (s.writeX r v).pc = s.pc := by
  unfold State.writeX; split <;> rfl
@[simp] theorem State.writeX_fault (r : RegIdx) (v : Word64) : (s.writeX r v).fault = s.fault := by
  unfold State.writeX; split <;> rfl
@[simp] theorem State.writeX_mem (r : RegIdx) (v : Word64) : (s.writeX r v).mem = s.mem := by
  unfold State.writeX; split <;> rfl
@[simp] theorem State.writeX_draws (r : RegIdx) (v : Word64) : (s.writeX r v).draws = s.draws := by
  unfold State.writeX; split <;> rfl

/-! ### `retire` -/

@[simp] theorem State.retire_base (r : RegIdx) (v : Word64) : (s.retire r v).base = s.base := by
  simp [State.retire]
@[simp] theorem State.retire_fault (r : RegIdx) (v : Word64) : (s.retire r v).fault = s.fault := by
  simp [State.retire]
@[simp] theorem State.retire_mem (r : RegIdx) (v : Word64) : (s.retire r v).mem = s.mem := by
  simp [State.retire]
@[simp] theorem State.retire_draws (r : RegIdx) (v : Word64) : (s.retire r v).draws = s.draws := by
  simp [State.retire]
@[simp] theorem State.retire_pc (r : RegIdx) (v : Word64) : (s.retire r v).pc = s.nextPc := by
  simp [State.retire, State.nextPc]

/-! ### `placeWord` -/

@[simp] theorem State.placeWord_base (w : Word32) : (s.placeWord w).base = s.base := rfl
@[simp] theorem State.placeWord_x (w : Word32) : (s.placeWord w).x = s.x := rfl
@[simp] theorem State.placeWord_fault (w : Word32) : (s.placeWord w).fault = none := rfl
@[simp] theorem State.placeWord_draws (w : Word32) : (s.placeWord w).draws = s.draws := rfl

/-! ### Reads through the updates -/

@[simp] theorem State.readX_advancePc (r : RegIdx) : s.advancePc.readX r = s.readX r := rfl
@[simp] theorem State.readX_afterDraw (r : RegIdx) : s.afterDraw.readX r = s.readX r := rfl
@[simp] theorem State.readX_raiseIllegal (w : Word32) (r : RegIdx) : (s.raiseIllegal w).readX r = s.readX r := rfl
@[simp] theorem State.readPc_afterDraw : s.afterDraw.readPc = s.readPc := rfl
@[simp] theorem State.readPc_raiseIllegal (w : Word32) : (s.raiseIllegal w).readPc = s.readPc := rfl
@[simp] theorem State.readPc_writeX (r : RegIdx) (v : Word64) : (s.writeX r v).readPc = s.readPc := by
  simp [State.readPc]
@[simp] theorem State.nextPc_writeX (r : RegIdx) (v : Word64) : (s.writeX r v).nextPc = s.nextPc := by
  simp [State.nextPc]

end Sys2Proof.Machine
end

