-- ==== Sys2Proof/Laws/Ops.lean ====
section
/-! SUPPORT. What each shared operation does, said once. -/

namespace Sys2Proof.Machine

/-! ### XLEN-bit values -/

@[simp] theorem fitXlen_fitXlen (b : Base) (v : Word64) : fitXlen b (fitXlen b v) = fitXlen b v := by
  cases b <;> simp [fitXlen]

@[simp] theorem fitXlen_sextXlen (b : Base) (z : Word32) : fitXlen b (sextXlen b z) = sextXlen b z := by
  cases b <;> simp [fitXlen, sextXlen]

@[simp] theorem fitXlen_rv64 (v : Word64) : fitXlen .rv64 v = v := rfl

/-- The XLEN-bit value as a number. -/
theorem fitXlen_toNat (b : Base) (v : Word64) : (fitXlen b v).toNat = v.toNat % 2 ^ b.xlen := by
  cases b
  · simp only [fitXlen, Base.xlen, BitVec.toNat_setWidth]
    omega
  · simp only [fitXlen, Base.xlen]
    exact (Nat.mod_eq_of_lt v.isLt).symm

@[simp] theorem lo32_sextXlen (b : Base) (z : Word32) : lo32 (sextXlen b z) = z := by
  cases b
  · simp only [lo32, sextXlen]
    ext i hi
    simp only [BitVec.getElem_extractLsb', BitVec.getLsbD_setWidth, Nat.zero_add]
    simp [show i < 64 by omega, BitVec.getLsbD_eq_getElem hi]
  · simp only [lo32, sextXlen]
    ext i hi
    simp only [BitVec.getElem_extractLsb', BitVec.getLsbD_signExtend, Nat.zero_add]
    simp [show i < 64 by omega, hi]

/-! ### Registers -/

/-- `x[0]` reads zero in every state (10_state.md R21). -/
@[simp] theorem State.readX_zero (s : State) : s.readX 0#5 = 0#64 := by simp [State.readX]

/-- A write to `x[0]` is discarded (10_state.md R21). -/
@[simp] theorem State.writeX_zero (s : State) (v : Word64) : s.writeX 0#5 v = s := by simp [State.writeX]

theorem regSlot_inj {q r : RegIdx} (hq : q ≠ 0#5) (hr : r ≠ 0#5) (h : q.toNat - 1 = r.toNat - 1) : q = r := by
  have a : q.toNat ≠ 0 := fun e => hq (BitVec.eq_of_toNat_eq (by simpa using e))
  have b : r.toNat ≠ 0 := fun e => hr (BitVec.eq_of_toNat_eq (by simpa using e))
  exact BitVec.eq_of_toNat_eq (by omega)

/-- Reading the register just written. -/
theorem State.readX_writeX_same (s : State) (r : RegIdx) (v : Word64) :
    (s.writeX r v).readX r = if r = 0#5 then 0#64 else fitXlen s.base v := by
  by_cases h : r = 0#5
  · subst h; simp
  · simp [State.readX, State.writeX, h]

/-- Reading any other register. -/
theorem State.readX_writeX_other (s : State) {q r : RegIdx} (v : Word64) (h : q ≠ r) :
    (s.writeX r v).readX q = s.readX q := by
  by_cases hr : r = 0#5
  · subst hr; simp
  · by_cases hq : q = 0#5
    · subst hq; simp
    · have hne : r.toNat - 1 ≠ q.toNat - 1 := fun e => h (regSlot_inj hr hq e).symm
      simp [State.readX, State.writeX, hr, hq, Vector.getElem_set_ne _ _ hne]

/-- A register read is an XLEN-bit value. -/
@[simp] theorem State.fitXlen_readX (s : State) (r : RegIdx) : fitXlen s.base (s.readX r) = s.readX r := by
  unfold State.readX
  split
  · cases s.base <;> simp [fitXlen]
  · simp

/-! ### What `retire` and `raiseIllegal` do -/

theorem State.retire_spec (s : State) (rd : RegIdx) (v : Word64) :
    Retired s (s.retire rd v) rd (fitXlen s.base v) where
  dest := by simp [State.retire, State.readX_writeX_same]
  others r h := by simp [State.retire, State.readX_writeX_other s v h]
  pc := by
    simp only [State.readPc, State.retire_base, State.retire_pc, State.nextPc, fitXlen_fitXlen, fitXlen_toNat,
      BitVec.toNat_add]
    cases s.base <;> simp [Base.xlen]
  base := by simp
  fault := by simp
  memory a := by simp [State.readByte]

theorem State.retire32_spec (s : State) (rd : RegIdx) (z : Word32) :
    Retired s (s.retire32 rd z) rd (sextXlen s.base z) := by
  have h := s.retire_spec rd (sextXlen s.base z)
  simpa [State.retire32] using h

theorem State.raiseIllegal_spec (s : State) (w : Word32) : Raised s (s.raiseIllegal w) w where
  fault := rfl
  registers _ := rfl
  pc := rfl
  base := rfl
  memory _ := rfl
  draws := rfl

/-- All that `ifLegal` can do. -/
theorem ifLegal_cases {i : Instr} {s e t : State} (h : ifLegal i s e = .next t) :
    (i.wellFormed s.base = true ∧ t = e) ∨ (i.wellFormed s.base = false ∧ t = s.raiseIllegal (encode i)) := by
  unfold ifLegal at h
  split at h
  · exact .inl ⟨‹_›, by injection h with h; exact h.symm⟩
  · rename_i hw
    exact .inr ⟨Bool.eq_false_iff.mpr hw, by injection h with h; exact h.symm⟩

/-- `ifLegal` always answers a next state. -/
theorem ifLegal_next (i : Instr) (s e : State) : ∃ t : State, ifLegal i s e = .next t := by
  unfold ifLegal
  split <;> exact ⟨_, rfl⟩

/-! ### The instruction memory -/

/-- Read after write. -/
theorem memByte_memPut (m : List Host.Cell) (a c : Nat) (v : Byte) :
    memByte (memPut m a v) c = if c = a then some v else memByte m c := by
  induction m with
  | nil => simp [memPut, memByte, eq_comm]
  | cons p rest ih =>
    obtain ⟨k, u⟩ := p
    simp only [memPut]
    split
    · simp [memByte, eq_comm]
    · split
      · subst_vars
        simp only [memByte, eq_comm]
        split <;> simp_all
      · simp only [memByte, ih]
        by_cases hk : k = c
        · subst hk; simp; omega
        · simp [hk]

/-- Every address of the list after `memPut` is the new one or one of the old ones. -/
theorem memPut_addresses (m : List Host.Cell) (a : Nat) (v : Byte) :
    ∀ c ∈ memPut m a v, c.1 = a ∨ ∃ d ∈ m, d.1 = c.1 := by
  induction m with
  | nil => simp [memPut]
  | cons p rest ih =>
    obtain ⟨k, u⟩ := p
    simp only [memPut]
    intro c hc
    split at hc
    · rcases List.mem_cons.mp hc with rfl | hc
      · exact .inl rfl
      · exact .inr ⟨c, hc, rfl⟩
    · split at hc
      · rcases List.mem_cons.mp hc with rfl | hc
        · exact .inl rfl
        · exact .inr ⟨c, List.mem_cons_of_mem _ hc, rfl⟩
      · rcases List.mem_cons.mp hc with rfl | hc
        · exact .inr ⟨(k, u), List.mem_cons_self, rfl⟩
        · rcases ih c hc with h | ⟨d, hd, e⟩
          · exact .inl h
          · exact .inr ⟨d, List.mem_cons_of_mem _ hd, e⟩

/-- The canonical form as a relation between all pairs of cells. -/
theorem memWf_iff (m : List Host.Cell) : memWf m = true ↔ m.Pairwise (fun c d => c.1 < d.1) := by
  induction m with
  | nil => simp [memWf]
  | cons p rest ih =>
    obtain ⟨k, u⟩ := p
    cases rest with
    | nil => simp [memWf]
    | cons q rest =>
      obtain ⟨k', u'⟩ := q
      simp only [memWf, Bool.and_eq_true, decide_eq_true_eq, ih, List.pairwise_cons]
      constructor
      · rintro ⟨h, h', h''⟩
        refine ⟨?_, h', h''⟩
        intro d hd
        rcases List.mem_cons.mp hd with rfl | hd
        · exact h
        · exact Nat.lt_trans h (h' d hd)
      · rintro ⟨h, h'⟩
        exact ⟨h (k', u') List.mem_cons_self, h'⟩

/-- `memPut` keeps the canonical form. -/
theorem memWf_memPut (m : List Host.Cell) (a : Nat) (v : Byte) (h : memWf m = true) :
    memWf (memPut m a v) = true := by
  rw [memWf_iff] at *
  induction m with
  | nil => simp [memPut]
  | cons p rest ih =>
    obtain ⟨k, u⟩ := p
    rw [List.pairwise_cons] at h
    simp only [memPut]
    split
    · rename_i hlt
      refine List.pairwise_cons.mpr ⟨?_, List.pairwise_cons.mpr h⟩
      intro d hd
      rcases List.mem_cons.mp hd with rfl | hd
      · exact hlt
      · exact Nat.lt_trans hlt (h.1 d hd)
    · split
      · subst_vars
        exact List.pairwise_cons.mpr h
      · refine List.pairwise_cons.mpr ⟨?_, ih h.2⟩
        intro d hd
        rcases memPut_addresses rest a v d hd with e | ⟨d', hd', e⟩
        · rw [e]; omega
        · rw [← e]; exact h.1 d' hd'

/-- `memPutBytes` keeps the canonical form. -/
theorem memWf_memPutBytes (bytes : List Byte) (m : List Host.Cell) (a : Nat) (h : memWf m = true) :
    memWf (memPutBytes m a bytes) = true := by
  induction bytes generalizing m a with
  | nil => exact h
  | cons v rest ih => exact ih _ _ (memWf_memPut m a v h)

/-- The word of the four bytes of a word is the word (20_memory.md R43). -/
theorem wordOfBytes_bytes (w : Word32) :
    wordOfBytes (w.extractLsb' 0 8) (w.extractLsb' 8 8) (w.extractLsb' 16 8) (w.extractLsb' 24 8) = w := by
  unfold wordOfBytes
  ext i hi
  simp only [BitVec.getElem_append, BitVec.getElem_extractLsb']
  split
  · simp; rfl
  · split
    · rw [show 8 + (i - 8) = i by omega]; rfl
    · split
      · rw [show 16 + (i - 8 - 8) = i by omega]; rfl
      · rw [show 24 + (i - 8 - 8 - 8) = i by omega]; rfl

/-- The word just placed is the word read. -/
theorem memWord_memPutBytes (m : List Host.Cell) (a : Nat) (w : Word32) :
    memWord (memPutBytes m a (bytesOfWord w)) a = some w := by
  simp only [memWord, bytesOfWord, memPutBytes, Nat.add_assoc, Nat.reduceAdd]
  simp [memByte_memPut, wordOfBytes_bytes]

/-- Bytes placed at four addresses leave every other address alone. -/
theorem memByte_memPutBytes_other (m : List Host.Cell) (a c : Nat) (w : Word32) (h : c < a ∨ a + 4 ≤ c) :
    memByte (memPutBytes m a (bytesOfWord w)) c = memByte m c := by
  simp only [bytesOfWord, memPutBytes, memByte_memPut]
  rw [if_neg (by omega), if_neg (by omega), if_neg (by omega), if_neg (by omega)]

/-- An XLEN-bit value is below `2^XLEN`. -/
theorem State.readPc_lt (s : State) : s.readPc.toNat < 2 ^ s.base.xlen := by
  rw [State.readPc, fitXlen_toNat]
  exact Nat.mod_lt _ (Nat.two_pow_pos _)

/-- The `pc` that `placeWord` leaves: the old one, rounded down to a multiple of 4. -/
theorem State.readPc_placeWord (s : State) (w : Word32) :
    (s.placeWord w).readPc = (s.readPc >>> 2) <<< 2 ∧
      ((s.readPc >>> 2) <<< 2).toNat = s.readPc.toNat / 4 * 4 := by
  have hlt := s.readPc_lt
  have h64 := s.readPc.isLt
  have e : ((s.readPc >>> 2) <<< 2).toNat = s.readPc.toNat / 4 * 4 := by
    simp only [BitVec.toNat_shiftLeft, BitVec.toNat_ushiftRight, Nat.shiftLeft_eq, Nat.shiftRight_eq_div_pow]
    omega
  refine ⟨BitVec.eq_of_toNat_eq ?_, e⟩
  show (fitXlen s.base ((s.readPc >>> 2) <<< 2)).toNat = _
  rw [fitXlen_toNat, e]
  exact Nat.mod_eq_of_lt (by omega)

/-- `placeWord` leaves its word where the next step fetches it. -/
theorem State.fetch_placeWord (s : State) (w : Word32) : (s.placeWord w).fetch = .ok w := by
  obtain ⟨h, e⟩ := s.readPc_placeWord w
  unfold State.fetch
  rw [h, e, if_pos (by omega)]
  show (match memWord (memPutBytes s.mem ((s.readPc >>> 2) <<< 2).toNat (bytesOfWord w)) _ with
    | some w => Except.ok w
    | none => Except.error Fault.unmappedFetch) = _
  rw [e, memWord_memPutBytes]

end Sys2Proof.Machine
end

