-- ==== Sys2Proof/Laws/Exec.lean ====
section
/-! SUPPORT. What `exec` can do, said once for all instructions. -/

namespace Sys2Proof.Machine

/-- The state from which a legal instruction retires, and its result: every instruction is `ifLegal` over one
`retire` of its destination register, after a draw for the two pseudo-ops. -/
theorem exec_eq_ifLegal (i : Instr) (s : State) :
    ∃ v : Word64, exec i s = ifLegal i s ((if i.isCsrRead then s.afterDraw else s).retire i.rd v) := by
  cases i <;> exact ⟨_, rfl⟩

/-- Every instruction answers a next state: none faults and none is refused. -/
theorem exec_next (i : Instr) (s : State) : ∃ t : State, exec i s = .next t := by
  obtain ⟨v, h⟩ := exec_eq_ifLegal i s
  rw [h]
  exact ifLegal_next _ _ _

/-- All that `exec` can do. -/
theorem exec_cases {i : Instr} {s t : State} (h : exec i s = .next t) :
    (i.wellFormed s.base = true ∧ ∃ v : Word64, t = (if i.isCsrRead then s.afterDraw else s).retire i.rd v) ∨
      (i.wellFormed s.base = false ∧ t = s.raiseIllegal (encode i)) := by
  obtain ⟨v, e⟩ := exec_eq_ifLegal i s
  rw [e] at h
  rcases ifLegal_cases h with ⟨hw, ht⟩ | ⟨hw, ht⟩
  · exact .inl ⟨hw, v, ht⟩
  · exact .inr ⟨hw, ht⟩

end Sys2Proof.Machine
end

