-- ==== Sys2Proof/Laws/PerInstr.lean ====
section
/-! SUPPORT. Per instruction: the word the encoder writes has the fixed bits of the instruction's own row of the opcode
map, the row gives the instruction back, and it exists on the bases the instruction exists on. The two pseudo-ops have
no row there (30_encoding.md R81). -/

namespace Sys2Proof.Laws.RowMatch

def Statement (i : Instr) : Prop :=
  i.isCsrRead = true ∨ ∃ r ∈ opcodeMap, (∀ b : Base, r.bases.contains b = i.onBase b) ∧
    r.fits (encode i) = true ∧ r.make (encode i) = i

theorem sm4ed (rd rs1 rs2 : RegIdx) (bs : BitVec 2) : Statement (.sm4ed rd rs1 rs2 bs) :=
  .inr ⟨.rbs [.rv32, .rv64] Config.f5Sm4ed .sm4ed, by simp [opcodeMap, rowsBoth, rowsRv32, rowsRv64], by intro b; cases b <;> rfl,
    Row.rbs_fits _ _ _ _ _ _ _, by simp only [encode, Row.rbs, rdOf_wordRbs, rs1Of_wordRbs, rs2Of_wordRbs, bsOf_wordRbs]⟩

theorem sm4ks (rd rs1 rs2 : RegIdx) (bs : BitVec 2) : Statement (.sm4ks rd rs1 rs2 bs) :=
  .inr ⟨.rbs [.rv32, .rv64] Config.f5Sm4ks .sm4ks, by simp [opcodeMap, rowsBoth, rowsRv32, rowsRv64], by intro b; cases b <;> rfl,
    Row.rbs_fits _ _ _ _ _ _ _, by simp only [encode, Row.rbs, rdOf_wordRbs, rs1Of_wordRbs, rs2Of_wordRbs, bsOf_wordRbs]⟩

theorem sm3p0 (rd rs1 : RegIdx) : Statement (.sm3p0 rd rs1) :=
  .inr ⟨.i [.rv32, .rv64] Config.f7Hash Config.selSm3p0 .sm3p0, by simp [opcodeMap, rowsBoth, rowsRv32, rowsRv64], by intro b; cases b <;> rfl,
    Row.i_fits _ _ _ _ _ _, by simp only [encode, Row.i, rdOf_wordI, rs1Of_wordI]⟩

theorem sm3p1 (rd rs1 : RegIdx) : Statement (.sm3p1 rd rs1) :=
  .inr ⟨.i [.rv32, .rv64] Config.f7Hash Config.selSm3p1 .sm3p1, by simp [opcodeMap, rowsBoth, rowsRv32, rowsRv64], by intro b; cases b <;> rfl,
    Row.i_fits _ _ _ _ _ _, by simp only [encode, Row.i, rdOf_wordI, rs1Of_wordI]⟩

theorem sha256sum0 (rd rs1 : RegIdx) : Statement (.sha256sum0 rd rs1) :=
  .inr ⟨.i [.rv32, .rv64] Config.f7Hash Config.selSha256sum0 .sha256sum0, by simp [opcodeMap, rowsBoth, rowsRv32, rowsRv64], by intro b; cases b <;> rfl,
    Row.i_fits _ _ _ _ _ _, by simp only [encode, Row.i, rdOf_wordI, rs1Of_wordI]⟩

theorem sha256sum1 (rd rs1 : RegIdx) : Statement (.sha256sum1 rd rs1) :=
  .inr ⟨.i [.rv32, .rv64] Config.f7Hash Config.selSha256sum1 .sha256sum1, by simp [opcodeMap, rowsBoth, rowsRv32, rowsRv64], by intro b; cases b <;> rfl,
    Row.i_fits _ _ _ _ _ _, by simp only [encode, Row.i, rdOf_wordI, rs1Of_wordI]⟩

theorem sha256sig0 (rd rs1 : RegIdx) : Statement (.sha256sig0 rd rs1) :=
  .inr ⟨.i [.rv32, .rv64] Config.f7Hash Config.selSha256sig0 .sha256sig0, by simp [opcodeMap, rowsBoth, rowsRv32, rowsRv64], by intro b; cases b <;> rfl,
    Row.i_fits _ _ _ _ _ _, by simp only [encode, Row.i, rdOf_wordI, rs1Of_wordI]⟩

theorem sha256sig1 (rd rs1 : RegIdx) : Statement (.sha256sig1 rd rs1) :=
  .inr ⟨.i [.rv32, .rv64] Config.f7Hash Config.selSha256sig1 .sha256sig1, by simp [opcodeMap, rowsBoth, rowsRv32, rowsRv64], by intro b; cases b <;> rfl,
    Row.i_fits _ _ _ _ _ _, by simp only [encode, Row.i, rdOf_wordI, rs1Of_wordI]⟩

theorem aes32esmi (rd rs1 rs2 : RegIdx) (bs : BitVec 2) : Statement (.aes32esmi rd rs1 rs2 bs) :=
  .inr ⟨.rbs [.rv32] Config.f5Aes32esmi .aes32esmi, by simp [opcodeMap, rowsBoth, rowsRv32, rowsRv64], by intro b; cases b <;> rfl,
    Row.rbs_fits _ _ _ _ _ _ _, by simp only [encode, Row.rbs, rdOf_wordRbs, rs1Of_wordRbs, rs2Of_wordRbs, bsOf_wordRbs]⟩

theorem aes32esi (rd rs1 rs2 : RegIdx) (bs : BitVec 2) : Statement (.aes32esi rd rs1 rs2 bs) :=
  .inr ⟨.rbs [.rv32] Config.f5Aes32esi .aes32esi, by simp [opcodeMap, rowsBoth, rowsRv32, rowsRv64], by intro b; cases b <;> rfl,
    Row.rbs_fits _ _ _ _ _ _ _, by simp only [encode, Row.rbs, rdOf_wordRbs, rs1Of_wordRbs, rs2Of_wordRbs, bsOf_wordRbs]⟩

theorem aes32dsmi (rd rs1 rs2 : RegIdx) (bs : BitVec 2) : Statement (.aes32dsmi rd rs1 rs2 bs) :=
  .inr ⟨.rbs [.rv32] Config.f5Aes32dsmi .aes32dsmi, by simp [opcodeMap, rowsBoth, rowsRv32, rowsRv64], by intro b; cases b <;> rfl,
    Row.rbs_fits _ _ _ _ _ _ _, by simp only [encode, Row.rbs, rdOf_wordRbs, rs1Of_wordRbs, rs2Of_wordRbs, bsOf_wordRbs]⟩

theorem aes32dsi (rd rs1 rs2 : RegIdx) (bs : BitVec 2) : Statement (.aes32dsi rd rs1 rs2 bs) :=
  .inr ⟨.rbs [.rv32] Config.f5Aes32dsi .aes32dsi, by simp [opcodeMap, rowsBoth, rowsRv32, rowsRv64], by intro b; cases b <;> rfl,
    Row.rbs_fits _ _ _ _ _ _ _, by simp only [encode, Row.rbs, rdOf_wordRbs, rs1Of_wordRbs, rs2Of_wordRbs, bsOf_wordRbs]⟩

theorem sha512sum0r (rd rs1 rs2 : RegIdx) : Statement (.sha512sum0r rd rs1 rs2) :=
  .inr ⟨.r [.rv32] Config.f7Sha512sum0r .sha512sum0r, by simp [opcodeMap, rowsBoth, rowsRv32, rowsRv64], by intro b; cases b <;> rfl,
    Row.r_fits _ _ _ _ _ _, by simp only [encode, Row.r, rdOf_wordR, rs1Of_wordR, rs2Of_wordR]⟩

theorem sha512sum1r (rd rs1 rs2 : RegIdx) : Statement (.sha512sum1r rd rs1 rs2) :=
  .inr ⟨.r [.rv32] Config.f7Sha512sum1r .sha512sum1r, by simp [opcodeMap, rowsBoth, rowsRv32, rowsRv64], by intro b; cases b <;> rfl,
    Row.r_fits _ _ _ _ _ _, by simp only [encode, Row.r, rdOf_wordR, rs1Of_wordR, rs2Of_wordR]⟩

theorem sha512sig0l (rd rs1 rs2 : RegIdx) : Statement (.sha512sig0l rd rs1 rs2) :=
  .inr ⟨.r [.rv32] Config.f7Sha512sig0l .sha512sig0l, by simp [opcodeMap, rowsBoth, rowsRv32, rowsRv64], by intro b; cases b <;> rfl,
    Row.r_fits _ _ _ _ _ _, by simp only [encode, Row.r, rdOf_wordR, rs1Of_wordR, rs2Of_wordR]⟩

theorem sha512sig0h (rd rs1 rs2 : RegIdx) : Statement (.sha512sig0h rd rs1 rs2) :=
  .inr ⟨.r [.rv32] Config.f7Sha512sig0h .sha512sig0h, by simp [opcodeMap, rowsBoth, rowsRv32, rowsRv64], by intro b; cases b <;> rfl,
    Row.r_fits _ _ _ _ _ _, by simp only [encode, Row.r, rdOf_wordR, rs1Of_wordR, rs2Of_wordR]⟩

theorem sha512sig1l (rd rs1 rs2 : RegIdx) : Statement (.sha512sig1l rd rs1 rs2) :=
  .inr ⟨.r [.rv32] Config.f7Sha512sig1l .sha512sig1l, by simp [opcodeMap, rowsBoth, rowsRv32, rowsRv64], by intro b; cases b <;> rfl,
    Row.r_fits _ _ _ _ _ _, by simp only [encode, Row.r, rdOf_wordR, rs1Of_wordR, rs2Of_wordR]⟩

theorem sha512sig1h (rd rs1 rs2 : RegIdx) : Statement (.sha512sig1h rd rs1 rs2) :=
  .inr ⟨.r [.rv32] Config.f7Sha512sig1h .sha512sig1h, by simp [opcodeMap, rowsBoth, rowsRv32, rowsRv64], by intro b; cases b <;> rfl,
    Row.r_fits _ _ _ _ _ _, by simp only [encode, Row.r, rdOf_wordR, rs1Of_wordR, rs2Of_wordR]⟩

theorem aes64ks1i (rd rs1 : RegIdx) (rnum : BitVec 4) : Statement (.aes64ks1i rd rs1 rnum) :=
  .inr ⟨.ks1i, by simp [opcodeMap, rowsBoth, rowsRv32, rowsRv64], by intro b; cases b <;> rfl,
    Row.ks1i_fits _ _ _, by simp only [encode, Row.ks1i, rdOf_wordKs1i, rs1Of_wordKs1i, rnumOf_wordKs1i]⟩

theorem aes64ks2 (rd rs1 rs2 : RegIdx) : Statement (.aes64ks2 rd rs1 rs2) :=
  .inr ⟨.r [.rv64] Config.f7Aes64ks2 .aes64ks2, by simp [opcodeMap, rowsBoth, rowsRv32, rowsRv64], by intro b; cases b <;> rfl,
    Row.r_fits _ _ _ _ _ _, by simp only [encode, Row.r, rdOf_wordR, rs1Of_wordR, rs2Of_wordR]⟩

theorem aes64im (rd rs1 : RegIdx) : Statement (.aes64im rd rs1) :=
  .inr ⟨.i [.rv64] Config.f7AesImm Config.selAes64im .aes64im, by simp [opcodeMap, rowsBoth, rowsRv32, rowsRv64], by intro b; cases b <;> rfl,
    Row.i_fits _ _ _ _ _ _, by simp only [encode, Row.i, rdOf_wordI, rs1Of_wordI]⟩

theorem aes64esm (rd rs1 rs2 : RegIdx) : Statement (.aes64esm rd rs1 rs2) :=
  .inr ⟨.r [.rv64] Config.f7Aes64esm .aes64esm, by simp [opcodeMap, rowsBoth, rowsRv32, rowsRv64], by intro b; cases b <;> rfl,
    Row.r_fits _ _ _ _ _ _, by simp only [encode, Row.r, rdOf_wordR, rs1Of_wordR, rs2Of_wordR]⟩

theorem aes64es (rd rs1 rs2 : RegIdx) : Statement (.aes64es rd rs1 rs2) :=
  .inr ⟨.r [.rv64] Config.f7Aes64es .aes64es, by simp [opcodeMap, rowsBoth, rowsRv32, rowsRv64], by intro b; cases b <;> rfl,
    Row.r_fits _ _ _ _ _ _, by simp only [encode, Row.r, rdOf_wordR, rs1Of_wordR, rs2Of_wordR]⟩

theorem aes64dsm (rd rs1 rs2 : RegIdx) : Statement (.aes64dsm rd rs1 rs2) :=
  .inr ⟨.r [.rv64] Config.f7Aes64dsm .aes64dsm, by simp [opcodeMap, rowsBoth, rowsRv32, rowsRv64], by intro b; cases b <;> rfl,
    Row.r_fits _ _ _ _ _ _, by simp only [encode, Row.r, rdOf_wordR, rs1Of_wordR, rs2Of_wordR]⟩

theorem aes64ds (rd rs1 rs2 : RegIdx) : Statement (.aes64ds rd rs1 rs2) :=
  .inr ⟨.r [.rv64] Config.f7Aes64ds .aes64ds, by simp [opcodeMap, rowsBoth, rowsRv32, rowsRv64], by intro b; cases b <;> rfl,
    Row.r_fits _ _ _ _ _ _, by simp only [encode, Row.r, rdOf_wordR, rs1Of_wordR, rs2Of_wordR]⟩

theorem sha512sum0 (rd rs1 : RegIdx) : Statement (.sha512sum0 rd rs1) :=
  .inr ⟨.i [.rv64] Config.f7Hash Config.selSha512sum0 .sha512sum0, by simp [opcodeMap, rowsBoth, rowsRv32, rowsRv64], by intro b; cases b <;> rfl,
    Row.i_fits _ _ _ _ _ _, by simp only [encode, Row.i, rdOf_wordI, rs1Of_wordI]⟩

theorem sha512sum1 (rd rs1 : RegIdx) : Statement (.sha512sum1 rd rs1) :=
  .inr ⟨.i [.rv64] Config.f7Hash Config.selSha512sum1 .sha512sum1, by simp [opcodeMap, rowsBoth, rowsRv32, rowsRv64], by intro b; cases b <;> rfl,
    Row.i_fits _ _ _ _ _ _, by simp only [encode, Row.i, rdOf_wordI, rs1Of_wordI]⟩

theorem sha512sig0 (rd rs1 : RegIdx) : Statement (.sha512sig0 rd rs1) :=
  .inr ⟨.i [.rv64] Config.f7Hash Config.selSha512sig0 .sha512sig0, by simp [opcodeMap, rowsBoth, rowsRv32, rowsRv64], by intro b; cases b <;> rfl,
    Row.i_fits _ _ _ _ _ _, by simp only [encode, Row.i, rdOf_wordI, rs1Of_wordI]⟩

theorem sha512sig1 (rd rs1 : RegIdx) : Statement (.sha512sig1 rd rs1) :=
  .inr ⟨.i [.rv64] Config.f7Hash Config.selSha512sig1 .sha512sig1, by simp [opcodeMap, rowsBoth, rowsRv32, rowsRv64], by intro b; cases b <;> rfl,
    Row.i_fits _ _ _ _ _ _, by simp only [encode, Row.i, rdOf_wordI, rs1Of_wordI]⟩

theorem pollentropy (rd : RegIdx) : Statement (.pollentropy rd) := .inl rfl

theorem getnoise (rd : RegIdx) : Statement (.getnoise rd) := .inl rfl

end Sys2Proof.Laws.RowMatch
end

