-- ==== Sys2Proof/Machine/Flags.lean ====
section
/-! DEFINITION. There are no flags and no condition codes: "No instruction of the extension sets or reads a status
flag, condition code or predicate" (10_state.md R24). This file therefore defines none. -/
end

