-- ==== Sys2Proof/Tests/Slice0.lean ====
section
/-! SUPPORT. The model's own tests. Expected words and values are those of 95_test_vectors.md and of the rules' examples,
never the model's answers. The witnesses at the end meet the hypotheses of the statements. -/

open Sys2Proof Sys2Proof.Machine

namespace Sys2Proof.Tests

/-- The next state of an outcome. -/
def nextOf : Host.Outcome State Fault Refusal → Option State
  | .next s => some s
  | .fault _ => none
  | .refused _ => none

/-- The fault of an outcome. -/
def faultOf : Host.Outcome State Fault Refusal → Option Fault
  | .next _ => none
  | .fault f => some f
  | .refused _ => none

/-- A small state: registers with values, the rest holding a marker that shows what must not change. -/
def mach (b : Base) (regs : List (RegIdx × Word64)) : State :=
  regs.foldl (fun s p => s.writeX p.1 p.2) (State.launch b 0x1000#64 (Vector.replicate 31 0x0badcafe#64) [])

/-- The same with a word at `pc`. -/
def machAt (b : Base) (regs : List (RegIdx × Word64)) (w : Word32) : State := (mach b regs).placeWord w

/-- Register `r` after the instruction. -/
def after (i : Instr) (b : Base) (regs : List (RegIdx × Word64)) (r : RegIdx) : Option Word64 :=
  (nextOf (exec i (mach b regs))).map (·.readX r)

/-! ### Well-formedness: a term for each check, which the check refuses -/

theorem test_wf_sm4ed_unequal : (Instr.sm4ed 4 5 6 0).wellFormed .rv32 = false := by decide
theorem test_wf_sm4ks_unequal : (Instr.sm4ks 7 5 6 3).wellFormed .rv64 = false := by decide
theorem test_wf_aes32_unequal : (Instr.aes32esmi 7 5 6 0).wellFormed .rv32 = false ∧
    (Instr.aes32esi 7 5 6 0).wellFormed .rv32 = false ∧ (Instr.aes32dsmi 7 5 6 0).wellFormed .rv32 = false ∧
    (Instr.aes32dsi 7 5 6 0).wellFormed .rv32 = false := by decide
theorem test_wf_rnum_above_max : (Instr.aes64ks1i 5 11 11).wellFormed .rv64 = false ∧
    (Instr.aes64ks1i 5 11 10).wellFormed .rv64 = true := by decide
theorem test_wf_rv64_only_on_rv32 : (Instr.aes64ks2 5 5 6).wellFormed .rv32 = false ∧
    (Instr.sha512sum0 10 11).wellFormed .rv32 = false := by decide
theorem test_wf_rv32_only_on_rv64 : (Instr.aes32esi 5 5 6 0).wellFormed .rv64 = false ∧
    (Instr.sha512sum0r 10 11 12).wellFormed .rv64 = false := by decide

/-! ### Decoding: one word per instruction (95_test_vectors.md 2.1), its bits written out, and the row's match and mask
(30_encoding.md R74) -/

theorem test_word_sm4ed : decode .rv32 0b10110000011000101000001010110011#32 = .insn (.sm4ed 5 5 6 2) ∧
    decode .rv64 0b10110000011000101000001010110011#32 = .insn (.sm4ed 5 5 6 2) ∧
    encode (.sm4ed 5 5 6 2) = 0xb06282b3#32 := by decide
theorem test_word_sm4ks : decode .rv32 0b10110100011000101000001010110011#32 = .insn (.sm4ks 5 5 6 2) ∧
    decode .rv64 0b10110100011000101000001010110011#32 = .insn (.sm4ks 5 5 6 2) ∧
    encode (.sm4ks 5 5 6 2) = 0xb46282b3#32 := by decide
theorem test_word_sm3p0 : decode .rv32 0b00010000100001011000010100010011#32 = .insn (.sm3p0 10 11) ∧
    decode .rv64 0b00010000100001011000010100010011#32 = .insn (.sm3p0 10 11) ∧
    encode (.sm3p0 10 11) = 0x10858513#32 := by decide
theorem test_word_sm3p1 : decode .rv32 0b00010000100101011000010100010011#32 = .insn (.sm3p1 10 11) ∧
    decode .rv64 0b00010000100101011000010100010011#32 = .insn (.sm3p1 10 11) ∧
    encode (.sm3p1 10 11) = 0x10958513#32 := by decide
theorem test_word_sha256sum0 : decode .rv32 0b00010000000001011000010100010011#32 = .insn (.sha256sum0 10 11) ∧
    decode .rv64 0b00010000000001011000010100010011#32 = .insn (.sha256sum0 10 11) ∧
    encode (.sha256sum0 10 11) = 0x10058513#32 := by decide
theorem test_word_sha256sum1 : decode .rv32 0b00010000000101011000010100010011#32 = .insn (.sha256sum1 10 11) ∧
    decode .rv64 0b00010000000101011000010100010011#32 = .insn (.sha256sum1 10 11) ∧
    encode (.sha256sum1 10 11) = 0x10158513#32 := by decide
theorem test_word_sha256sig0 : decode .rv32 0b00010000001001011000010100010011#32 = .insn (.sha256sig0 10 11) ∧
    decode .rv64 0b00010000001001011000010100010011#32 = .insn (.sha256sig0 10 11) ∧
    encode (.sha256sig0 10 11) = 0x10258513#32 := by decide
theorem test_word_sha256sig1 : decode .rv32 0b00010000001101011000010100010011#32 = .insn (.sha256sig1 10 11) ∧
    decode .rv64 0b00010000001101011000010100010011#32 = .insn (.sha256sig1 10 11) ∧
    encode (.sha256sig1 10 11) = 0x10358513#32 := by decide
theorem test_word_aes32esmi : decode .rv32 0b10110110011000101000001010110011#32 = .insn (.aes32esmi 5 5 6 2) ∧
    encode (.aes32esmi 5 5 6 2) = 0xb66282b3#32 := by decide
theorem test_word_aes32esi : decode .rv32 0b10110010011000101000001010110011#32 = .insn (.aes32esi 5 5 6 2) ∧
    encode (.aes32esi 5 5 6 2) = 0xb26282b3#32 := by decide
theorem test_word_aes32dsmi : decode .rv32 0b10111110011000101000001010110011#32 = .insn (.aes32dsmi 5 5 6 2) ∧
    encode (.aes32dsmi 5 5 6 2) = 0xbe6282b3#32 := by decide
theorem test_word_aes32dsi : decode .rv32 0b10111010011000101000001010110011#32 = .insn (.aes32dsi 5 5 6 2) ∧
    encode (.aes32dsi 5 5 6 2) = 0xba6282b3#32 := by decide
theorem test_word_sha512sum0r : decode .rv32 0b01010000110001011000010100110011#32 = .insn (.sha512sum0r 10 11 12) ∧
    encode (.sha512sum0r 10 11 12) = 0x50c58533#32 := by decide
theorem test_word_sha512sum1r : decode .rv32 0b01010010110001011000010100110011#32 = .insn (.sha512sum1r 10 11 12) ∧
    encode (.sha512sum1r 10 11 12) = 0x52c58533#32 := by decide
theorem test_word_sha512sig0l : decode .rv32 0b01010100110001011000010100110011#32 = .insn (.sha512sig0l 10 11 12) ∧
    encode (.sha512sig0l 10 11 12) = 0x54c58533#32 := by decide
theorem test_word_sha512sig0h : decode .rv32 0b01011100110001011000010100110011#32 = .insn (.sha512sig0h 10 11 12) ∧
    encode (.sha512sig0h 10 11 12) = 0x5cc58533#32 := by decide
theorem test_word_sha512sig1l : decode .rv32 0b01010110110001011000010100110011#32 = .insn (.sha512sig1l 10 11 12) ∧
    encode (.sha512sig1l 10 11 12) = 0x56c58533#32 := by decide
theorem test_word_sha512sig1h : decode .rv32 0b01011110110001011000010100110011#32 = .insn (.sha512sig1h 10 11 12) ∧
    encode (.sha512sig1h 10 11 12) = 0x5ec58533#32 := by decide
theorem test_word_aes64ks1i : decode .rv64 0b00110001101001011000001010010011#32 = .insn (.aes64ks1i 5 11 10) ∧
    encode (.aes64ks1i 5 11 10) = 0x31a58293#32 := by decide
theorem test_word_aes64ks2 : decode .rv64 0b01110010110001011000010100110011#32 = .insn (.aes64ks2 10 11 12) ∧
    encode (.aes64ks2 10 11 12) = 0x72c58533#32 := by decide
theorem test_word_aes64im : decode .rv64 0b00110000000001011000010100010011#32 = .insn (.aes64im 10 11) ∧
    encode (.aes64im 10 11) = 0x30058513#32 := by decide
theorem test_word_aes64esm : decode .rv64 0b00110110110001011000010100110011#32 = .insn (.aes64esm 10 11 12) ∧
    encode (.aes64esm 10 11 12) = 0x36c58533#32 := by decide
theorem test_word_aes64es : decode .rv64 0b00110010110001011000010100110011#32 = .insn (.aes64es 10 11 12) ∧
    encode (.aes64es 10 11 12) = 0x32c58533#32 := by decide
theorem test_word_aes64dsm : decode .rv64 0b00111110110001011000010100110011#32 = .insn (.aes64dsm 10 11 12) ∧
    encode (.aes64dsm 10 11 12) = 0x3ec58533#32 := by decide
theorem test_word_aes64ds : decode .rv64 0b00111010110001011000010100110011#32 = .insn (.aes64ds 10 11 12) ∧
    encode (.aes64ds 10 11 12) = 0x3ac58533#32 := by decide
theorem test_word_sha512sum0 : decode .rv64 0b00010000010001011000010100010011#32 = .insn (.sha512sum0 10 11) ∧
    encode (.sha512sum0 10 11) = 0x10458513#32 := by decide
theorem test_word_sha512sum1 : decode .rv64 0b00010000010101011000010100010011#32 = .insn (.sha512sum1 10 11) ∧
    encode (.sha512sum1 10 11) = 0x10558513#32 := by decide
theorem test_word_sha512sig0 : decode .rv64 0b00010000011001011000010100010011#32 = .insn (.sha512sig0 10 11) ∧
    encode (.sha512sig0 10 11) = 0x10658513#32 := by decide
theorem test_word_sha512sig1 : decode .rv64 0b00010000011101011000010100010011#32 = .insn (.sha512sig1 10 11) ∧
    encode (.sha512sig1 10 11) = 0x10758513#32 := by decide

theorem test_match_and_mask : opcodeMap.map (fun r => (r.patt, r.mask)) =
    [ (0x30000033#32, 0x3e00707f#32), (0x34000033#32, 0x3e00707f#32), (0x10800013#32, 0xfff0707f#32) ] ++
    [ (0x10900013#32, 0xfff0707f#32), (0x10000013#32, 0xfff0707f#32), (0x10100013#32, 0xfff0707f#32) ] ++
    [ (0x10200013#32, 0xfff0707f#32), (0x10300013#32, 0xfff0707f#32), (0x36000033#32, 0x3e00707f#32) ] ++
    [ (0x32000033#32, 0x3e00707f#32), (0x3e000033#32, 0x3e00707f#32), (0x3a000033#32, 0x3e00707f#32) ] ++
    [ (0x50000033#32, 0xfe00707f#32), (0x52000033#32, 0xfe00707f#32), (0x54000033#32, 0xfe00707f#32) ] ++
    [ (0x5c000033#32, 0xfe00707f#32), (0x56000033#32, 0xfe00707f#32), (0x5e000033#32, 0xfe00707f#32) ] ++
    [ (0x31000013#32, 0xff00707f#32), (0x72000033#32, 0xfe00707f#32), (0x30000013#32, 0xfff0707f#32) ] ++
    [ (0x36000033#32, 0xfe00707f#32), (0x32000033#32, 0xfe00707f#32), (0x3e000033#32, 0xfe00707f#32) ] ++
    [ (0x3a000033#32, 0xfe00707f#32), (0x10400013#32, 0xfff0707f#32), (0x10500013#32, 0xfff0707f#32) ] ++
    [ (0x10600013#32, 0xfff0707f#32), (0x10700013#32, 0xfff0707f#32) ] := by decide

/-- The words of the two pseudo-ops, bit 31 first: a CSR number, `00000 010`, `rd`, `1110011` (30_encoding.md R81). -/
theorem test_word_csr_read : csrOf 0b11000000000100000010010101110011#32 = 0xc01#12 ∧
    wordCsrRead 0xc01#12 10 = 0b11000000000100000010010101110011#32 := by decide

/-- Their numbers differ (40_entropy_pseudo_ops.md R101). -/
theorem csr_numbers_differ : Config.csrGetnoise ≠ Config.csrPollentropy := by
  unfold Config.csrGetnoise
  intro h
  have h := congrArg BitVec.toNat h
  have hg := Config.csrGetnoiseGap.isLt
  have hp := Config.csrPollentropy.isLt
  simp only [BitVec.toNat_add, BitVec.toNat_ofNat] at h
  omega

/-- A word with the major opcode of the CSR instructions fits no row. -/
theorem decode_wordCsrRead (b : Base) (csr : CsrNum) (rd : RegIdx) :
    decode b (wordCsrRead csr rd) = decodeCsrRead (wordCsrRead csr rd) := by
  refine decode_of_no_fit fun r hr _ => Bool.eq_false_iff.mpr fun hf => ?_
  have h := List.all_eq_true.mp opcodeMap_opcode r hr
  simp only [Bool.and_eq_true, beq_iff_eq, Bool.not_eq_true', Row.fits, beq_eq_false_iff_ne] at h hf
  have e := congrArg (fun w => BitVec.extractLsb' 0 7 w) hf
  simp only [BitVec.extractLsb'_and] at e
  rw [opcode_wordCsrRead, h.1] at e
  exact h.2 e.symm

theorem test_decode_pollentropy : decode .rv32 (wordCsrRead Config.csrPollentropy 10) = .insn (.pollentropy 10) ∧
    decode .rv64 (wordCsrRead Config.csrPollentropy 10) = .insn (.pollentropy 10) := by
  simp [decode_wordCsrRead, decodeCsrRead, opcode_wordCsrRead, middle_wordCsrRead]

theorem test_decode_getnoise : decode .rv32 (wordCsrRead Config.csrGetnoise 11) = .insn (.getnoise 11) ∧
    decode .rv64 (wordCsrRead Config.csrGetnoise 11) = .insn (.getnoise 11) := by
  simp [decode_wordCsrRead, decodeCsrRead, opcode_wordCsrRead, middle_wordCsrRead, csr_numbers_differ]

/-! ### Decode outcomes of the reserved classes (95_test_vectors.md 2.2) -/

theorem test_decode_unequal_rs1_rd : decode .rv32 0x30628233#32 = .illegalOpcode ∧
    decode .rv64 0x306283b3#32 = .illegalOpcode ∧
    decode .rv32 0x326283b3#32 = .illegalOpcode ∧
    decode .rv32 0x72a28533#32 = .illegalOpcode := by decide
theorem test_decode_spare_rv64_space : decode .rv64 0xb26282b3#32 = .notScalarCrypto ∧
    decode .rv64 0xf26282b3#32 = .notScalarCrypto ∧
    decode .rv64 0x766282b3#32 = .notScalarCrypto ∧
    decode .rv64 0xfe6282b3#32 = .notScalarCrypto ∧
    decode .rv64 0xf2c58533#32 = .notScalarCrypto := by decide
theorem test_decode_other_base : decode .rv64 0x50c58533#32 = .notScalarCrypto ∧
    decode .rv64 0x5ec58533#32 = .notScalarCrypto ∧
    decode .rv32 0x10458513#32 = .notScalarCrypto ∧
    decode .rv32 0x30058513#32 = .notScalarCrypto ∧
    decode .rv32 0x31058293#32 = .notScalarCrypto := by decide
theorem test_decode_rnum_reserved : decode .rv64 0x31b58293#32 = .illegalOpcode ∧
    decode .rv64 0x31f58293#32 = .illegalOpcode := by decide
theorem test_decode_unassigned : decode .rv64 0x30158293#32 = .notScalarCrypto ∧
    decode .rv64 0x30858293#32 = .notScalarCrypto ∧
    decode .rv64 0x10a58293#32 = .notScalarCrypto ∧
    decode .rv32 0x11858293#32 = .notScalarCrypto ∧
    decode .rv32 0x10c58533#32 = .notScalarCrypto ∧
    decode .rv32 0x58c58533#32 = .notScalarCrypto := by decide
theorem test_decode_outside_block : decode .rv32 0x00058293#32 = .notScalarCrypto ∧
    decode .rv32 0x10059293#32 = .notScalarCrypto ∧
    decode .rv32 0x306292b3#32 = .notScalarCrypto ∧
    decode .rv32 0x006282b3#32 = .notScalarCrypto ∧
    decode .rv64 0x306282bb#32 = .notScalarCrypto ∧
    decode .rv32 0x00000000#32 = .notScalarCrypto ∧
    decode .rv64 0xffffffff#32 = .notScalarCrypto := by decide
theorem test_decode_legal_overlaps : decode .rv32 0x30600033#32 = .insn (.sm4ed 0 0 6 0) ∧
    decode .rv64 0x326282b3#32 = .insn (.aes64es 5 5 6) ∧
    decode .rv64 0x726282b3#32 = .insn (.aes64ks2 5 5 6) ∧
    decode .rv64 0x326283b3#32 = .insn (.aes64es 7 5 6) ∧
    decode .rv32 0x72a282b3#32 = .insn (.aes32esi 5 5 10 1) := by decide

/-! ### One step of each instruction (95_test_vectors.md 3) -/

theorem test_sm4ed_a : after (.sm4ed 5 5 6 3) .rv32 [(5, 0x12345678), (6, 0x9abcdef0)] 5 = some 0xe8fc9e4a := by decide
theorem test_sm4ed_b : after (.sm4ed 5 5 6 3) .rv64 [(5, 0x12345678), (6, 0x9abcdef0)] 5 = some 0xffffffffe8fc9e4a := by decide
theorem test_sm4ks_a : after (.sm4ks 5 5 6 3) .rv32 [(5, 0x12345678), (6, 0x9abcdef0)] 5 = some 0x20745061 := by decide
theorem test_sm4ks_b : after (.sm4ks 5 5 6 3) .rv64 [(5, 0x12345678), (6, 0x9abcdef0)] 5 = some 0x20745061 := by decide
theorem test_sm3p0_a : after (.sm3p0 10 11) .rv32 [(11, 0x7380166f)] 10 = some 0x5f722f88 := by decide
theorem test_sm3p0_b : after (.sm3p0 10 11) .rv64 [(11, 0xabcdef017380166f)] 10 = some 0x5f722f88 := by decide
theorem test_sm3p1_a : after (.sm3p1 10 11) .rv32 [(11, 0x7380166f)] 10 = some 0x4f0e6fa4 := by decide
theorem test_sm3p1_b : after (.sm3p1 10 11) .rv64 [(11, 0xabcdef017380166f)] 10 = some 0x4f0e6fa4 := by decide
theorem test_sha256sum0_a : after (.sha256sum0 10 11) .rv32 [(11, 0x6a09e667)] 10 = some 0xce20b47e := by decide
theorem test_sha256sum0_b : after (.sha256sum0 10 11) .rv64 [(11, 0xabcdef016a09e667)] 10 = some 0xffffffffce20b47e := by decide
theorem test_sha256sum1_a : after (.sha256sum1 10 11) .rv32 [(11, 0x6a09e667)] 10 = some 0x55b65510 := by decide
theorem test_sha256sum1_b : after (.sha256sum1 10 11) .rv64 [(11, 0xabcdef016a09e667)] 10 = some 0x55b65510 := by decide
theorem test_sha256sig0_a : after (.sha256sig0 10 11) .rv32 [(11, 0x6a09e667)] 10 = some 0xba0cf582 := by decide
theorem test_sha256sig0_b : after (.sha256sig0 10 11) .rv64 [(11, 0xabcdef016a09e667)] 10 = some 0xffffffffba0cf582 := by decide
theorem test_sha256sig1_a : after (.sha256sig1 10 11) .rv32 [(11, 0x6a09e667)] 10 = some 0xcfe5da3c := by decide
theorem test_sha256sig1_b : after (.sha256sig1 10 11) .rv64 [(11, 0xabcdef016a09e667)] 10 = some 0xffffffffcfe5da3c := by decide
theorem test_aes32esmi_a : after (.aes32esmi 5 5 6 1) .rv32 [(5, 0x12345678), (6, 0x9abcdef0)] 5 = some 0xf296c5f := by decide
theorem test_aes32esmi_b : after (.aes32esmi 5 5 6 3) .rv32 [(5, 0x12345678), (6, 0x9abcdef0)] 5 = some 0x79e7eec0 := by decide
theorem test_aes32esi_a : after (.aes32esi 5 5 6 1) .rv32 [(5, 0x12345678), (6, 0x9abcdef0)] 5 = some 0x12344b78 := by decide
theorem test_aes32esi_b : after (.aes32esi 5 5 6 3) .rv32 [(5, 0x12345678), (6, 0x9abcdef0)] 5 = some 0xaa345678 := by decide
theorem test_aes32dsmi_a : after (.aes32dsmi 5 5 6 1) .rv32 [(5, 0x12345678), (6, 0x9abcdef0)] 5 = some 0x4424bf4b := by decide
theorem test_aes32dsmi_b : after (.aes32dsmi 5 5 6 3) .rv32 [(5, 0x12345678), (6, 0x9abcdef0)] 5 = some 0x3ce1eec := by decide
theorem test_aes32dsi_a : after (.aes32dsi 5 5 6 1) .rv32 [(5, 0x12345678), (6, 0x9abcdef0)] 5 = some 0x1234ca78 := by decide
theorem test_aes32dsi_b : after (.aes32dsi 5 5 6 3) .rv32 [(5, 0x12345678), (6, 0x9abcdef0)] 5 = some 0x25345678 := by decide
theorem test_sha512sum0r_a : after (.sha512sum0r 10 11 12) .rv32 [(11, 0xf3bcc908), (12, 0x6a09e667)] 10 = some 0xaac80c2a := by decide
theorem test_sha512sum0r_b : after (.sha512sum0r 10 11 12) .rv32 [(11, 0x6a09e667), (12, 0xf3bcc908)] 10 = some 0x8c4db56 := by decide
theorem test_sha512sum1r_a : after (.sha512sum1r 10 11 12) .rv32 [(11, 0xf3bcc908), (12, 0x6a09e667)] 10 = some 0x643336ef := by decide
theorem test_sha512sum1r_b : after (.sha512sum1r 10 11 12) .rv32 [(11, 0x6a09e667), (12, 0xf3bcc908)] 10 = some 0x259a6cc1 := by decide
theorem test_sha512sig0l_a : after (.sha512sig0l 10 11 12) .rv32 [(11, 0x89abcdef), (12, 0x1234567)] 10 = some 0x6c4f1aa1 := by decide
theorem test_sha512sig0l_b : after (.sha512sig0l 10 11 12) .rv32 [(11, 0xf3bcc908), (12, 0x6a09e667)] 10 = some 0x51caa1df := by decide
theorem test_sha512sig0h_a : after (.sha512sig0h 10 11 12) .rv32 [(11, 0x1234567), (12, 0x89abcdef)] 10 = some 0x6f92c77c := by decide
theorem test_sha512sig0h_b : after (.sha512sig0h 10 11 12) .rv32 [(11, 0x6a09e667), (12, 0xf3bcc908)] 10 = some 0x3dbae919 := by decide
theorem test_sha512sig1l_a : after (.sha512sig1l 10 11 12) .rv32 [(11, 0x89abcdef), (12, 0x1234567)] 10 = some 0xbbd4317a := by decide
theorem test_sha512sig1l_b : after (.sha512sig1l 10 11 12) .rv32 [(11, 0xf3bcc908), (12, 0x6a09e667)] 10 = some 0x3ee44510 := by decide
theorem test_sha512sig1h_a : after (.sha512sig1h 10 11 12) .rv32 [(11, 0x1234567), (12, 0x89abcdef)] 10 = some 0x70a3460d := by decide
theorem test_sha512sig1h_b : after (.sha512sig1h 10 11 12) .rv32 [(11, 0x6a09e667), (12, 0xf3bcc908)] 10 = some 0xc8c619e7 := by decide
theorem test_aes64ks1i_a : after (.aes64ks1i 5 11 9) .rv64 [(11, 0x3c4fcf098815f7ab)] 5 = some 0x1eb84bc01eb84bc := by decide
theorem test_aes64ks1i_b : after (.aes64ks1i 5 11 10) .rv64 [(11, 0x3c4fcf098815f7ab)] 5 = some 0xeb848a01eb848a01 := by decide
theorem test_aes64ks2_a : after (.aes64ks2 14 12 13) .rv64 [(12, 0x706050403020100), (13, 0xf0e0d0c0b0a0908)] 14 = some 0x30201000c0c0c0c := by decide
theorem test_aes64ks2_b : after (.aes64ks2 14 12 13) .rv64 [(12, 0x123456789abcdef), (13, 0xfedcba9876543210)] 14 = some 0x89abcdef77777777 := by decide
theorem test_aes64im_a : after (.aes64im 14 12) .rv64 [(12, 0x706050403020100), (13, 0xf0e0d0c0b0a0908)] 14 = some 0x90c0b0e0d080f0a := by decide
theorem test_aes64im_b : after (.aes64im 14 12) .rv64 [(12, 0x123456789abcdef), (13, 0xfedcba9876543210)] 14 = some 0xc66c82284ee40aa0 := by decide
theorem test_aes64esm_a : after (.aes64esm 14 12 13) .rv64 [(12, 0x706050403020100), (13, 0xf0e0d0c0b0a0908)] 14 = some 0x51336d2c455c6a6a := by decide
theorem test_aes64esm_b : after (.aes64esm 14 12 13) .rv64 [(12, 0x123456789abcdef), (13, 0xfedcba9876543210)] 14 = some 0x6443f5555927d88c := by decide
theorem test_aes64es_a : after (.aes64es 14 12 13) .rv64 [(12, 0x706050403020100), (13, 0xf0e0d0c0b0a0908)] 14 = some 0x7bab01f276676b63 := by decide
theorem test_aes64es_b : after (.aes64es 14 12 13) .rv64 [(12, 0x123456789abcdef), (13, 0xfedcba9876543210)] 14 = some 0xa7862385bb206edf := by decide
theorem test_aes64dsm_a : after (.aes64dsm 14 12 13) .rv64 [(12, 0x706050403020100), (13, 0xf0e0d0c0b0a0908)] 14 = some 0x6e29192e1c96a313 := by decide
theorem test_aes64dsm_b : after (.aes64dsm 14 12 13) .rv64 [(12, 0x123456789abcdef), (13, 0xfedcba9876543210)] 14 = some 0xa9440af11b8378b5 := by decide
theorem test_aes64ds_a : after (.aes64ds 14 12 13) .rv64 [(12, 0x706050403020100), (13, 0xf0e0d0c0b0a0908)] 14 = some 0x9ed7093038a3f352 := by decide
theorem test_aes64ds_b : after (.aes64ds 14 12 13) .rv64 [(12, 0x123456789abcdef), (13, 0xfedcba9876543210)] 14 = some 0xf93800a09fdc061 := by decide
theorem test_sha512sum0_a : after (.sha512sum0 10 11) .rv64 [(11, 0x123456789abcdef)] 10 = some 0xb7c57a100c7ec1ab := by decide
theorem test_sha512sum0_b : after (.sha512sum0 10 11) .rv64 [(11, 0x6a09e667f3bcc908)] 10 = some 0x8c4db56aac80c2a := by decide
theorem test_sha512sum1_a : after (.sha512sum1 10 11) .rv64 [(11, 0x123456789abcdef)] 10 = some 0x7703112333475567 := by decide
theorem test_sha512sum1_b : after (.sha512sum1 10 11) .rv64 [(11, 0x6a09e667f3bcc908)] 10 = some 0x259a6cc1643336ef := by decide
theorem test_sha512sig0_a : after (.sha512sig0 10 11) .rv64 [(11, 0x123456789abcdef)] 10 = some 0x6f92c77c6c4f1aa1 := by decide
theorem test_sha512sig0_b : after (.sha512sig0 10 11) .rv64 [(11, 0x6a09e667f3bcc908)] 10 = some 0x3dbae91951caa1df := by decide
theorem test_sha512sig1_a : after (.sha512sig1 10 11) .rv64 [(11, 0x123456789abcdef)] 10 = some 0x70a3460dbbd4317a := by decide
theorem test_sha512sig1_b : after (.sha512sig1 10 11) .rv64 [(11, 0x6a09e667f3bcc908)] 10 = some 0xc8c619e73ee44510 := by decide

/-- The draw is the model's free value: the test says where it goes, not what it is (40_entropy_pseudo_ops.md R100). -/
theorem test_pollentropy : after (.pollentropy 10) .rv64 [] 10 = some (Config.entropyRead 0) ∧
    (nextOf (exec (.pollentropy 10) (mach .rv64 []))).map (·.draws) = some 1 := ⟨rfl, rfl⟩

theorem test_getnoise : after (.getnoise 11) .rv32 [] 11 = some (fitXlen .rv32 (Config.entropyRead 0)) ∧
    after (.getnoise 0) .rv32 [] 0 = some 0 := ⟨by simp [after, nextOf, exec, execGetnoise, ifLegal, mach, State.launch,
      Instr.wellFormed, Instr.onBase, Instr.fieldsLegal, State.readEntropy, State.retire, State.readX, State.writeX,
      State.advancePc, State.afterDraw, State.drawn, fitXlen], rfl⟩

/-! ### Steps -/

/-- 60_exceptions.md R204: word `0x30628233` is `sm4ed` with `rs1 = x5`, `rd = x4`. -/
theorem test_step_illegal : (nextOf (step (machAt .rv32 [(5, 9)] 0x30628233#32))).map (fun t => (t.fault, t.readPc, t.readX 5)) =
    some (some { cause := 2, epc := 0x1000#64, tval := 0x30628233#32 }, 0x1000#64, 9#64) := by decide

/-- 60_exceptions.md R204: the run has ended. -/
theorem test_step_ended :
    (nextOf (step (machAt .rv32 [] 0x30628233#32))).map (fun t => faultOf (step t)) = some (some .runEnded) := by decide

/-- 10_state.md R22, R23: `pc + 4`, modulo `2^32` on RV32. -/
theorem test_step_pc : (nextOf (step (machAt .rv64 [] 0x10058513#32))).map (·.readPc) = some 0x1004#64 ∧
    (nextOf (step ({ mach .rv32 [] with pc := 0xfffffffc#64 } |>.placeWord 0x10058513#32))).map (·.readPc) =
      some 0#64 := by decide

/-- 20_memory.md R42: no step where the fetch cannot be performed. -/
theorem test_step_stuck : faultOf (step State.reset) = some .unmappedFetch ∧
    faultOf (step { mach .rv64 [] with pc := 0x1002#64 }) = some .misalignedFetch := by decide

/-- 20_memory.md R43: the byte at the lowest address holds bits 7:0. -/
theorem test_little_endian : (machAt .rv64 [] 0x10458513#32).mem =
    [(0x1000, 0x13#8), (0x1001, 0x85#8), (0x1002, 0x45#8), (0x1003, 0x10#8)] := by decide

/-- 10_state.md R21: a result with `rd = x0` is discarded. -/
theorem test_step_x0 : (nextOf (step (machAt .rv64 [(6, 1)] 0x30600033#32))).map (fun t => (t.x == (mach .rv64 [(6, 1)]).x, t.readX 0, t.fault)) =
    some (true, 0#64, none) := by decide

/-- The first instruction after reset, in the host's form, on each base. -/
theorem test_table_words : decodeTableWord 32 0x50c58533 = some (.sha512sum0r 10 11 12) ∧
    decodeTableWord 32 0x10458513 = some (.sha512sum0 10 11) ∧ decodeTableWord 32 0x31b58293 = none ∧
    nextOf (step (State.reset.withFetchWord 32 0x50c58533)) =
      nextOf (exec (.sha512sum0r 10 11 12) (State.reset.withFetchWord 32 0x50c58533)) := by decide

/-! ### Witnesses: concrete values that meet the hypotheses of the statements together -/

theorem witness_DecodeOfEncode : (Instr.aes64ks1i 31 0 10).wellFormed .rv64 = true ∧
    (Instr.sm4ed 0 0 31 3).wellFormed .rv32 = true ∧ (Instr.getnoise 0).wellFormed .rv64 = true := by decide

theorem witness_DecodedWordIsEncodingOfLegalInstr : decode .rv64 0x31af8f93#32 = .insn (.aes64ks1i 31 31 10) ∧
    decode .rv32 0x30000033#32 = .insn (.sm4ed 0 0 0 0) := by decide

theorem witness_InstructionsLieInTheBlock : decode .rv32 0x50000033#32 = .insn (.sha512sum0r 0 0 0) ∧
    decode .rv64 (wordCsrRead Config.csrPollentropy 10) = .insn (.pollentropy 10) :=
  ⟨by decide, test_decode_pollentropy.2⟩

theorem witness_Bit29TellsBlockCipherFromHash :
    (decode .rv64 0x300f8f93#32 = .insn (.aes64im 31 31) ∧ (Instr.aes64im 31 31).isCsrRead = false) ∧
    (decode .rv64 0x107f8f93#32 = .insn (.sha512sig1 31 31) ∧ (Instr.sha512sig1 31 31).isCsrRead = false) := by decide

theorem witness_AesWordsOnBothBases :
    (0b11011#5 ∈ [0b11011#5, 0b11001#5, 0b11111#5, 0b11101#5] ∧ 0b01#2 ≠ 0b00#2 ∧ ¬(0b01#2 = 0b01#2 ∧ 0b11011#5 = 0b11001#5)) ∧
    (0b11001#5 ∈ [0b11011#5, 0b11001#5, 0b11111#5, 0b11101#5] ∧ 0b10#2 ≠ 0b00#2 ∧ ¬(0b10#2 = 0b01#2 ∧ 0b11001#5 = 0b11001#5)) := by
  decide

theorem witness_OtherBaseEncodingsAreNotInstructions :
    0b0101111#7 ∈ [0b0101000#7, 0b0101001#7, 0b0101010#7, 0b0101110#7, 0b0101011#7, 0b0101111#7] ∧
      0b00111#5 ∈ [0b00100#5, 0b00101#5, 0b00110#5, 0b00111#5] := by decide

/-- For both statements. -/
theorem witness_Sm3Results_Sha256Results : 0x7380166f#32 = lo32 ((mach .rv64 [(11, 0xabcdef017380166f)]).readX 11) := by decide

theorem witness_Aes32Results : (mach .rv32 [(5, 0x12345678), (6, 0x9abcdef0)]).base = .rv32 ∧
    0x12345678#32 = lo32 ((mach .rv32 [(5, 0x12345678), (6, 0x9abcdef0)]).readX 5) ∧
    0x9a#8 = byte32 (lo32 ((mach .rv32 [(5, 0x12345678), (6, 0x9abcdef0)]).readX 6)) 3 := by decide

/-- The clauses `rs1 = rd` and `rs1 ≠ rd` of the SM4 and RV32 AES statements, `x0` among the first. -/
theorem witness_Sm4Results_Aes32Results_clauses : (0#5 : RegIdx) = 0#5 ∧ (5#5 : RegIdx) ≠ 4#5 := by decide

theorem witness_Sha512Rv32Results : (mach .rv32 [(11, 1), (12, 2)]).base = .rv32 ∧
    1#32 = lo32 ((mach .rv32 [(11, 1), (12, 2)]).readX 11) ∧ 2#32 = lo32 ((mach .rv32 [(11, 1), (12, 2)]).readX 12) := by
  decide

/-- With `rnum = 0xA`, the last legal value, and with `0xB`, the first that is not. -/
theorem witness_Aes64Ks1iResult : (mach .rv64 [(11, 0x3c4fcf098815f7ab)]).base = .rv64 ∧
    0x3c4fcf09#32 = hi32 ((mach .rv64 [(11, 0x3c4fcf098815f7ab)]).readX 11) ∧
    0x3c4fcf09#32 = (if (0xA#4 : BitVec 4) = 0xA#4 then 0x3c4fcf09#32 else (0x3c4fcf09#32).rotateRight 8) ∧
    0x093c4fcf#32 = (if (0#4 : BitVec 4) = 0xA#4 then 0x3c4fcf09#32 else (0x3c4fcf09#32).rotateRight 8) ∧
    0xeb848a01#32 = aesSubwordFwd 0x3c4fcf09#32 ^^^ (aesRcon 0xA#4).setWidth 32 ∧
    (0xA#4).toNat ≤ 10 ∧ 10 < (0xB#4).toNat := by decide

/-- The same equations can be met for `rnum = 0xB`, whose round constant is a free value. -/
theorem witness_Aes64Ks1iResult_reserved : ∃ t u w : Word32, t = hi32 ((mach .rv64 []).readX 11) ∧
    u = (if (0xB#4 : BitVec 4) = 0xA#4 then t else t.rotateRight 8) ∧
    w = aesSubwordFwd u ^^^ (aesRcon 0xB#4).setWidth 32 ∧ 10 < (0xB#4).toNat :=
  ⟨_, _, _, rfl, rfl, rfl, by decide⟩

/-- For both statements, `rs2` being `x12` too. -/
theorem witness_Aes64Ks2AndImResults_Sha512Rv64Results : (mach .rv64 [(12, 0x0706050403020100)]).base = .rv64 ∧
    0x0706050403020100#64 = (mach .rv64 [(12, 0x0706050403020100)]).readX 12 := by decide

theorem witness_Aes64RoundResults : (mach .rv64 [(12, 7), (13, 0)]).base = .rv64 ∧
    0x63636363636363c5#64 = aesSubbytes8Fwd (aesShiftrowsFwd ((mach .rv64 [(12, 7), (13, 0)]).readX 13) ((mach .rv64 [(12, 7), (13, 0)]).readX 12)) ∧
    0x5252525252525238#64 = aesSubbytes8Inv (aesShiftrowsInv ((mach .rv64 [(12, 7), (13, 0)]).readX 13) ((mach .rv64 [(12, 7), (13, 0)]).readX 12)) := by
  decide

theorem witness_AesSboxIsAffineOfFieldInverse : (0x53#8 : Byte) ≠ 0#8 ∧ fieldMul 0x53#8 0xca#8 = 1#8 := by decide

theorem witness_InvMixColumnsUndoesMiddleRound : (mach .rv64 [(12, 1), (13, 2)]).base = .rv64 := by decide

theorem witness_Sha512HalvesPair :
    (mach .rv32 [(11, 0xf3bcc908), (12, 0x6a09e667)]).base = .rv32 ∧ (mach .rv64 [(11, 0x6a09e667f3bcc908)]).base = .rv64 ∧
    (10#5 : RegIdx) ≠ 0#5 ∧ (mach .rv64 [(11, 0x6a09e667f3bcc908)]).readX 11 =
      lo32 ((mach .rv32 [(11, 0xf3bcc908), (12, 0x6a09e667)]).readX 12) ++
        lo32 ((mach .rv32 [(11, 0xf3bcc908), (12, 0x6a09e667)]).readX 11) := by decide

/-- The statement has no hypothesis: its two cases are both met, the first by `x0` as destination too. -/
theorem witness_FourSm4StepsAreOneRound_cases : (6#5 : RegIdx) ≠ 0#5 ∧ (5#5 : RegIdx) = 5#5 := by decide

theorem witness_FourAes32StepsAreOneColumn : (mach .rv32 [(7, 0x17fefaa0)]).base = .rv32 ∧
    (10#5 : RegIdx) ≠ 7#5 ∧ (11#5 : RegIdx) ≠ 7#5 ∧ (12#5 : RegIdx) ≠ 7#5 ∧ (13#5 : RegIdx) ≠ 7#5 := by decide

theorem witness_StepRunsDecodedInstruction :
    (machAt .rv64 [] 0x10458513#32).fault = none ∧ (machAt .rv64 [] 0x10458513#32).readPc.toNat % 4 = 0 ∧
    (machAt .rv64 [] 0x10458513#32).readByte 0x1000 = some 0x13#8 ∧
    (machAt .rv64 [] 0x10458513#32).readByte 0x1001 = some 0x85#8 ∧
    (machAt .rv64 [] 0x10458513#32).readByte 0x1002 = some 0x45#8 ∧
    (machAt .rv64 [] 0x10458513#32).readByte 0x1003 = some 0x10#8 ∧ (machAt .rv64 [] 0x10458513#32).readPc = 0x1000#64 ∧
    decodeBytes .rv64 [0x13#8, 0x85#8, 0x45#8, 0x10#8] = some (.insn (.sha512sum0 10 11), []) := by decide

/-- Clause by clause: `pc` one off alignment; the last of the four bytes missing; all four there. -/
theorem witness_FetchIsLittleEndianOrStuck :
    ({ mach .rv64 [] with pc := 0x1001#64 } : State).fault = none ∧
    ({ mach .rv64 [] with pc := 0x1001#64 } : State).readPc.toNat % 4 ≠ 0 ∧
    (∃ k : Nat, k < 4 ∧ ({ mach .rv64 [] with mem := [(0x1000, 1#8), (0x1001, 2#8), (0x1002, 3#8)] } : State).readByte (0x1000 + k) = none) ∧
    ({ mach .rv64 [] with mem := [(0x1000, 1#8), (0x1001, 2#8), (0x1002, 3#8)] } : State).readPc = 0x1000#64 ∧
    (List.range 4).map (fun k => (machAt .rv64 [] 0x10458513#32).readByte (0x1000 + k)) =
      [some 0x13#8, some 0x85#8, some 0x45#8, some 0x10#8] := ⟨by decide, by decide, ⟨3, by decide⟩, by decide, by decide⟩

/-- The word at `pc` of a test state, if the fetch can be performed. -/
def fetched (s : State) : Option Word32 :=
  match s.fetch with
  | .ok w => some w
  | .error _ => none

theorem fetch_of_fetched {s : State} {w : Word32} (h : fetched s = some w) : s.fetch = .ok w := by
  unfold fetched at h
  split at h
  · rename_i e
    rw [e, Option.some.inj h]
  · cases h

theorem witness_IllegalWordFillsFaultRecordAndEndsRun :
    ((machAt .rv32 [] 0x30628233#32).fault = none ∧ (machAt .rv32 [] 0x30628233#32).fetch = .ok 0x30628233#32 ∧
      decode .rv32 0x30628233#32 = .illegalOpcode) ∧
    ((machAt .rv64 [] 0xb26282b3#32).fault = none ∧ (machAt .rv64 [] 0xb26282b3#32).fetch = .ok 0xb26282b3#32 ∧
      decode .rv64 0xb26282b3#32 = .notScalarCrypto) :=
  ⟨⟨by decide, fetch_of_fetched (by decide), by decide⟩, ⟨by decide, fetch_of_fetched (by decide), by decide⟩⟩

/-- An SM4 word on RV64 with both fields 0, an AES word on RV32 with unequal fields, and the same word on RV64, each with
the instruction its fields give. -/
theorem witness_UnequalRs1RdIsIllegal :
    ((machAt .rv64 [] 0x30600033#32).fetch = .ok 0x30600033#32 ∧ (machAt .rv64 [] 0x30600033#32).fault = none ∧
      0#5 = (0x30600033#32).extractLsb' 7 5 ∧ 0#5 = (0x30600033#32).extractLsb' 15 5 ∧
      6#5 = (0x30600033#32).extractLsb' 20 5 ∧ 0#2 = (0x30600033#32).extractLsb' 30 2 ∧
      0x30600033#32 &&& 0x3e00707f#32 = 0x30000033#32 ∧ Instr.sm4ed 0 0 6 0 = .sm4ed 0#5 0#5 6#5 0#2) ∧
    ((machAt .rv32 [] 0x326283b3#32).fetch = .ok 0x326283b3#32 ∧ (machAt .rv32 [] 0x326283b3#32).fault = none ∧
      7#5 = (0x326283b3#32).extractLsb' 7 5 ∧ 5#5 = (0x326283b3#32).extractLsb' 15 5 ∧
      6#5 = (0x326283b3#32).extractLsb' 20 5 ∧ 0#2 = (0x326283b3#32).extractLsb' 30 2 ∧
      (machAt .rv32 [] 0x326283b3#32).base = .rv32 ∧ 0x326283b3#32 &&& 0x3e00707f#32 = 0x32000033#32 ∧
      Instr.aes32esi 7 5 6 0 = .aes32esi 7#5 5#5 6#5 0#2 ∧ 5#5 ≠ 7#5) ∧
    ((machAt .rv64 [] 0x326283b3#32).fetch = .ok 0x326283b3#32 ∧ (machAt .rv64 [] 0x326283b3#32).fault = none ∧
      (machAt .rv64 [] 0x326283b3#32).base = .rv64 ∧ 0x326283b3#32 &&& 0xfe00707f#32 = 0x32000033#32 ∧
      Instr.aes64es 7 5 6 = .aes64es 7#5 5#5 6#5) :=
  ⟨⟨fetch_of_fetched (by decide), by decide⟩, ⟨fetch_of_fetched (by decide), by decide⟩,
    ⟨fetch_of_fetched (by decide), by decide⟩⟩

/-- A step that is stuck, one that completes and one that takes the exception. -/
theorem witness_StepCompletesOrTrapsOrIsStuck : step State.reset = .fault .unmappedFetch ∧
    (nextOf (step (machAt .rv64 [] 0x10458513#32))).isSome = true ∧
    (nextOf (step (machAt .rv64 [] 0x31b58293#32))).isSome = true := ⟨rfl, by decide, by decide⟩

theorem witness_LoadedWordRunsNext : baseFor State.reset.base 0x50c58533#32 = .rv32 ∧
    decode .rv32 0x50c58533#32 = .insn (.sha512sum0r 10 11 12) := by decide

theorem witness_EveryLegalInstructionCompletes :
    (Instr.aes64ks1i 5 11 10).wellFormed (mach .rv64 []).base = true := by decide

theorem witness_IllFormedInstructionTraps : (Instr.aes64ks1i 5 11 11).wellFormed (mach .rv64 []).base = false ∧
    (Instr.aes64im 5 11).wellFormed (mach .rv32 []).base = false := by decide

theorem witness_OnlyTheDestinationChanges :
    exec (.sha512sum0 10 11) (mach .rv64 [(11, 1)]) = .next ((mach .rv64 [(11, 1)]).retire 10 0x0000001042000000#64) := by rfl

theorem witness_UnnamedRegistersDoNotMatter :
    (12#5 : RegIdx) ∉ (Instr.sha512sum0 10 11).sources ∧ (12#5 : RegIdx) ≠ (Instr.sha512sum0 10 11).rd := by decide

theorem witness_OnlyPseudoOpsDependOnDraws : (Instr.sm3p0 10 11).isCsrRead = false := by decide

/-- Two sources that differ in their upper halves only. -/
theorem witness_UpperHalvesAreIgnoredOnRv64 :
    (mach .rv64 [(11, 0xffffffff00000005)]).base = .rv64 ∧ (mach .rv64 [(11, 5)]).base = .rv64 ∧
    (Instr.sm3p0 10 11).isCsrRead = false ∧ (Instr.sm3p0 10 11).onBase .rv32 = true ∧
    (Instr.sm3p0 10 11).wellFormed .rv64 = true ∧ ∀ r ∈ (Instr.sm3p0 10 11).sources,
      lo32 ((mach .rv64 [(11, 0xffffffff00000005)]).readX r) = lo32 ((mach .rv64 [(11, 5)]).readX r) := by decide

theorem witness_RegisterZeroIsHardwired :
    (Instr.sm4ed 0 0 6 3).rd = 0#5 ∧ (Instr.sm4ed 0 0 6 3).wellFormed (mach .rv32 []).base = true := by decide

theorem witness_BaseAndMemoryAreFixedForTheRun :
    (nextOf (Sys2Proof.core.run 1 (machAt .rv64 [] 0x10458513#32))).isSome = true := by decide

/-- A sound state whose next step completes, and one whose next step takes the exception. -/
theorem witness_StepKeepsStateSound (w : Word32) (h : w = 0x10458513#32 ∨ w = 0x31b58293#32) :
    (machAt .rv64 [] w).Sound ∧ (nextOf (step (machAt .rv64 [] w))).isSome = true := by
  rcases h with rfl | rfl <;>
    exact ⟨⟨by decide, by decide, by decide, by decide, fun v _ => rfl, fun f hf => absurd hf (by simp [machAt, State.placeWord])⟩,
      by decide⟩

theorem witness_ResetAndLaunchStatesAreSound : memWf [(0x1000, 0x13#8), (0x1001, 0x85#8)] = true ∧
    (∀ c ∈ [(0x1000, 0x13#8), (0x1001, 0x85#8)], c.1 < 2 ^ Base.rv32.xlen) ∧
    fitXlen .rv32 0xfffffffc#64 = 0xfffffffc#64 ∧ (0xfffffffc#64).toNat % 4 = 0 ∧
    ∀ v ∈ (Vector.replicate 31 0xffffffff#64).toList, fitXlen .rv32 v = v := by
  refine ⟨by decide, by decide, by decide, by decide, fun v hv => ?_⟩
  rw [Vector.mem_toList_iff, Vector.mem_replicate] at hv
  rw [hv.2]
  decide

/-- Two words in a row. -/
theorem witness_StraightLineRunsToItsEnd : ∃ s : State, s.fault = none ∧ s.readPc.toNat % 4 = 0 ∧
    s.readPc.toNat + 4 * 2 ≤ 2 ^ s.base.xlen ∧ (∀ k : Nat, k < 2 → ∃ (w : Word32) (i : Instr),
      memWord s.mem (s.readPc.toNat + 4 * k) = some w ∧ decode s.base w = .insn i) ∧
    memWord s.mem ((s.readPc.toNat + 4 * 2) % 2 ^ s.base.xlen) = none := by
  refine ⟨{ machAt .rv64 [] 0x10458513#32 with
    mem := memPutBytes (machAt .rv64 [] 0x10458513#32).mem 0x1004 (bytesOfWord 0x10858513#32) },
    by decide, by decide, by decide, fun k hk => ?_, by decide⟩
  have : k = 0 ∨ k = 1 := by omega
  rcases this with rfl | rfl
  · exact ⟨0x10458513#32, .sha512sum0 10 11, by decide, by decide⟩
  · exact ⟨0x10858513#32, .sm3p0 10 11, by decide, by decide⟩

/-- A line that ends exactly at the end of the address space. -/
theorem witness_StraightLineRunsToItsEnd_wrap : ∃ s : State, s.fault = none ∧ s.readPc.toNat % 4 = 0 ∧
    s.readPc.toNat + 4 * 1 = 2 ^ s.base.xlen ∧ (∀ k : Nat, k < 1 → ∃ (w : Word32) (i : Instr),
      memWord s.mem (s.readPc.toNat + 4 * k) = some w ∧ decode s.base w = .insn i) ∧
    memWord s.mem ((s.readPc.toNat + 4 * 1) % 2 ^ s.base.xlen) = none := by
  refine ⟨{ mach .rv32 [] with pc := 0xfffffffc#64 } |>.placeWord 0x10858513#32,
    by decide, by decide, by decide, fun k hk => ?_, by decide⟩
  obtain rfl : k = 0 := by omega
  exact ⟨0x10858513#32, .sm3p0 10 11, by decide, by decide⟩

end Sys2Proof.Tests
end

/-! # Proofs: the `rs1 = rd` requirement (30_encoding.md R76) -/

/-! ### Rows of the opcode map: the instruction a word with a row's fixed bits stands for -/

namespace Sys2Proof

/-- The word has the fixed bits of a row of the base, and `i` is that row's instruction with the word's fields
(30_encoding.md R74), whether or not the row admits those field values. -/
def HasRow (b : Base) (w : Word32) (i : Instr) : Prop :=
  ∃ r ∈ opcodeMap, r.bases.contains b = true ∧ r.fits w = true ∧ r.make w = i

/-- A row exists on exactly the bases its instructions exist on. -/
theorem onBase_make_of_mem_opcodeMap {r : Row} (hr : r ∈ opcodeMap) (b : Base) (w : Word32) :
    (r.make w).onBase b = r.bases.contains b := by
  revert r
  cases b <;>
    simp [opcodeMap, rowsBoth, rowsRv32, rowsRv64, Row.rbs, Row.r, Row.i, Row.ks1i, Instr.onBase]

theorem HasRow.onBase {b : Base} {w : Word32} {i : Instr} (h : HasRow b w i) : i.onBase b = true := by
  obtain ⟨r, hr, hb, -, rfl⟩ := h
  rw [onBase_make_of_mem_opcodeMap hr, hb]

/-- The decoder takes the row's instruction if its fields are legal and rejects the word otherwise (R75). -/
theorem HasRow.decode_eq {b : Base} {w : Word32} {i : Instr} (h : HasRow b w i) :
    decode b w = if i.fieldsLegal then .insn i else .illegalOpcode := by
  obtain ⟨r, hr, hb, hw, rfl⟩ := h
  exact decode_of_fits hr hb hw

/-- A word with the fixed bits of a row of two sources and a byte select. -/
theorem hasRow_rbs {b : Base} {w : Word32} {bases : List Base} (f5 : BitVec 5)
    (mk : RegIdx → RegIdx → RegIdx → BitVec 2 → Instr) (hr : Row.rbs bases f5 mk ∈ opcodeMap)
    (hb : bases.contains b = true) (hw : w &&& 0x3e00707f#32 = wordRbs 0#2 f5 0#5 0#5 0#5) :
    HasRow b w (mk (rdOf w) (rs1Of w) (rs2Of w) (bsOf w)) :=
  ⟨_, hr, hb, beq_iff_eq.mpr hw, rfl⟩

/-- A word with the fixed bits of a row of two sources. -/
theorem hasRow_r {b : Base} {w : Word32} {bases : List Base} (f7 : BitVec 7)
    (mk : RegIdx → RegIdx → RegIdx → Instr) (hr : Row.r bases f7 mk ∈ opcodeMap)
    (hb : bases.contains b = true) (hw : w &&& 0xfe00707f#32 = wordR f7 0#5 0#5 0#5) :
    HasRow b w (mk (rdOf w) (rs1Of w) (rs2Of w)) :=
  ⟨_, hr, hb, beq_iff_eq.mpr hw, rfl⟩

end Sys2Proof

/-! ### What a step does with the word it fetches -/

namespace Sys2Proof.Machine

/-- A legal instruction completes, the two pseudo-ops after a draw that `Retired` does not see. -/
theorem exec_retired {i : Instr} {s : State} (h : i.wellFormed s.base = true) :
    ∃ (t : State) (v : Word64), exec i s = .next t ∧ Retired s t i.rd v := by
  obtain ⟨v, e⟩ := exec_eq_ifLegal i s
  rw [ifLegal, if_pos h] at e
  refine ⟨_, fitXlen s.base v, e, ?_⟩
  cases i.isCsrRead with
  | false => exact s.retire_spec i.rd v
  | true =>
    obtain ⟨dest, others, pc, base, fault, memory⟩ := s.afterDraw.retire_spec i.rd v
    exact ⟨dest, others, pc, base, fault, memory⟩

theorem step_eq_exec {s : State} {w : Word32} {i : Instr} (hfault : s.fault = none) (hfetch : s.fetch = .ok w)
    (hd : decode s.base w = .insn i) : step s = exec i s := by
  simp only [step, resolve, hfault, hfetch, hd]

theorem step_eq_raiseIllegal {s : State} {w : Word32} (hfault : s.fault = none) (hfetch : s.fetch = .ok w)
    (hd : ∀ i : Instr, decode s.base w ≠ .insn i) : step s = .next (s.raiseIllegal w) := by
  have hnone : resolve s.base w = none := by
    cases h : decode s.base w with
    | insn i => exact absurd h (hd i)
    | illegalOpcode => simp only [resolve, h, otherDecode]
    | notScalarCrypto => simp only [resolve, h, otherDecode]
  simp only [step, hfault, hfetch, hnone]

/-- A fetched word of a row whose field requirement it meets is the row's instruction, which the step runs to its end. -/
theorem step_of_hasRow_legal {s : State} {w : Word32} {i : Instr} (hfault : s.fault = none) (hfetch : s.fetch = .ok w)
    (hrow : HasRow s.base w i) (hlegal : i.fieldsLegal = true) :
    decode s.base w = .insn i ∧
      ∃ (t : State) (v : Word64), step s = .next t ∧ exec i s = .next t ∧ Retired s t i.rd v := by
  have hd : decode s.base w = .insn i := by rw [hrow.decode_eq, if_pos hlegal]
  have hwf : i.wellFormed s.base = true := by rw [Instr.wellFormed, hrow.onBase, hlegal]; rfl
  obtain ⟨t, v, hexec, hret⟩ := exec_retired hwf
  exact ⟨hd, t, v, (step_eq_exec hfault hfetch hd).trans hexec, hexec, hret⟩

/-- A fetched word of a row whose field requirement it fails takes the Illegal Opcode Exception. -/
theorem step_of_hasRow_illegal {s : State} {w : Word32} {i : Instr} (hfault : s.fault = none)
    (hfetch : s.fetch = .ok w) (hrow : HasRow s.base w i) (hillegal : i.fieldsLegal = false) :
    decode s.base w = .illegalOpcode ∧ ∃ t : State, step s = .next t ∧ Raised s t w := by
  have hd : decode s.base w = .illegalOpcode := by rw [hrow.decode_eq, hillegal]; rfl
  exact ⟨hd, _, step_eq_raiseIllegal hfault hfetch (by simp [hd]), s.raiseIllegal_spec w⟩

/-- What the rows that demand `rs1 = rd` (R76) have in common: the step completes exactly where the fields are equal. -/
theorem step_of_hasRow_tied {s : State} {w : Word32} {i : Instr} {rs1 : RegIdx} (hfault : s.fault = none)
    (hfetch : s.fetch = .ok w) (hrow : HasRow s.base w i) (htied : i.fieldsLegal = (rs1 == i.rd)) :
    (rs1 = i.rd → decode s.base w = .insn i ∧
      ∃ (t : State) (v : Word64), step s = .next t ∧ exec i s = .next t ∧ Retired s t i.rd v) ∧
    (rs1 ≠ i.rd → decode s.base w = .illegalOpcode ∧ ∃ t : State, step s = .next t ∧ Raised s t w) :=
  ⟨fun h => step_of_hasRow_legal hfault hfetch hrow (htied.trans (beq_iff_eq.mpr h)),
    fun h => step_of_hasRow_illegal hfault hfetch hrow (htied.trans (beq_eq_false_iff_ne.mpr h))⟩

end Sys2Proof.Machine

/-! ### The statement -/

namespace Sys2Proof.Proofs

open Sys2Proof Sys2Proof.Machine

/-- Settles O30. Each case names the row of the opcode map whose fixed bits the word has; what a step does with a word
of a row does the rest. -/
theorem unequalRs1RdIsIllegal : Obligations.UnequalRs1RdIsIllegal := by
  unfold Obligations.UnequalRs1RdIsIllegal
  rintro s w rd rs1 rs2 bs i hfault hfetch rfl rfl rfl rfl
  refine ⟨fun hbits => ?_, fun hbase hbits => ?_⟩
  · have hboth : [Base.rv32, .rv64].contains s.base = true := by cases s.base <;> rfl
    have on32 (h : s.base = .rv32) : [Base.rv32].contains s.base = true := by rw [h]; rfl
    rcases hbits with ⟨hw, rfl⟩ | ⟨hw, rfl⟩ | ⟨hbase, ⟨hw, rfl⟩ | ⟨hw, rfl⟩ | ⟨hw, rfl⟩ | ⟨hw, rfl⟩⟩
    · exact step_of_hasRow_tied hfault hfetch
        (hasRow_rbs Config.f5Sm4ed .sm4ed (by simp [opcodeMap, rowsBoth]) hboth hw) rfl
    · exact step_of_hasRow_tied hfault hfetch
        (hasRow_rbs Config.f5Sm4ks .sm4ks (by simp [opcodeMap, rowsBoth]) hboth hw) rfl
    · exact step_of_hasRow_tied hfault hfetch
        (hasRow_rbs Config.f5Aes32esmi .aes32esmi (by simp [opcodeMap, rowsRv32]) (on32 hbase) hw) rfl
    · exact step_of_hasRow_tied hfault hfetch
        (hasRow_rbs Config.f5Aes32esi .aes32esi (by simp [opcodeMap, rowsRv32]) (on32 hbase) hw) rfl
    · exact step_of_hasRow_tied hfault hfetch
        (hasRow_rbs Config.f5Aes32dsmi .aes32dsmi (by simp [opcodeMap, rowsRv32]) (on32 hbase) hw) rfl
    · exact step_of_hasRow_tied hfault hfetch
        (hasRow_rbs Config.f5Aes32dsi .aes32dsi (by simp [opcodeMap, rowsRv32]) (on32 hbase) hw) rfl
  · have h64 : [Base.rv64].contains s.base = true := by rw [hbase]; rfl
    rcases hbits with ⟨hw, rfl⟩ | ⟨hw, rfl⟩ | ⟨hw, rfl⟩ | ⟨hw, rfl⟩ | ⟨hw, rfl⟩
    · exact step_of_hasRow_legal hfault hfetch
        (hasRow_r Config.f7Aes64esm .aes64esm (by simp [opcodeMap, rowsRv64]) h64 hw) rfl
    · exact step_of_hasRow_legal hfault hfetch
        (hasRow_r Config.f7Aes64es .aes64es (by simp [opcodeMap, rowsRv64]) h64 hw) rfl
    · exact step_of_hasRow_legal hfault hfetch
        (hasRow_r Config.f7Aes64dsm .aes64dsm (by simp [opcodeMap, rowsRv64]) h64 hw) rfl
    · exact step_of_hasRow_legal hfault hfetch
        (hasRow_r Config.f7Aes64ds .aes64ds (by simp [opcodeMap, rowsRv64]) h64 hw) rfl
    · exact step_of_hasRow_legal hfault hfetch
        (hasRow_r Config.f7Aes64ks2 .aes64ks2 (by simp [opcodeMap, rowsRv64]) h64 hw) rfl

end Sys2Proof.Proofs

/-! # Proofs: SM4 (41_sm4.md) -/

/-! ### The word of an instruction that has a row of the opcode map -/

namespace Sys2Proof

/-- The word the encoder writes has the fixed bits of the instruction's row on every base the instruction exists on. -/
theorem hasRow_encode {b : Base} {i : Instr} (hmatch : Laws.RowMatch.Statement i) (hcsr : i.isCsrRead = false)
    (hon : i.onBase b = true) : HasRow b (encode i) i := by
  rcases hmatch with h | ⟨r, hr, hbases, hfits, hmake⟩
  · rw [hcsr] at h
    cases h
  · exact ⟨r, hr, (hbases b).trans hon, hfits, hmake⟩

/-- A row that demands `rs1 = rd` (30_encoding.md R76) gives its instruction exactly where the two fields are equal. -/
theorem HasRow.decode_eq_of_tied {b : Base} {w : Word32} {i : Instr} {rs1 : RegIdx} (hrow : HasRow b w i)
    (htied : i.fieldsLegal = (rs1 == i.rd)) :
    decode b w = if rs1 = i.rd then .insn i else .illegalOpcode := by
  rw [hrow.decode_eq, htied]
  simp only [beq_iff_eq]

end Sys2Proof

/-! ### What `exec` does with a legal and with an illegal instruction -/

namespace Sys2Proof.Machine

/-- A legal instruction whose effect is `x[rd] <- sext_XLEN(z); pc <- pc + 4`. -/
theorem completes_of_retire32 {i : Instr} {s : State} {z : Word32}
    (hexec : exec i s = ifLegal i s (s.retire32 i.rd z)) (hwf : i.wellFormed s.base = true) :
    Completes i s (sextXlen s.base z) := by
  rw [ifLegal, if_pos hwf] at hexec
  exact ⟨_, hexec, s.retire32_spec i.rd z, s.retire_draws _ _⟩

/-- An instruction that is not legal on the base takes the Illegal Opcode Exception with its own word. -/
theorem traps_of_not_wellFormed {i : Instr} {s : State} (hwf : i.wellFormed s.base = false) : Traps i s := by
  obtain ⟨v, hexec⟩ := exec_eq_ifLegal i s
  rw [ifLegal, hwf] at hexec
  exact ⟨_, hexec, s.raiseIllegal_spec (encode i)⟩

/-- The accumulating instructions on their base: the encoding demands `rs1 = rd` (30_encoding.md R76), and `exec`
completes exactly where it holds. -/
theorem exec_of_tied {i : Instr} {s : State} {rs1 : RegIdx} {z : Word32} (hon : i.onBase s.base = true)
    (htied : i.fieldsLegal = (rs1 == i.rd)) (hexec : exec i s = ifLegal i s (s.retire32 i.rd z)) :
    (rs1 = i.rd → Completes i s (sextXlen s.base z)) ∧ (rs1 ≠ i.rd → Traps i s) := by
  have hwf : i.wellFormed s.base = (rs1 == i.rd) := by rw [Instr.wellFormed, hon, htied, Bool.true_and]
  exact ⟨fun h => completes_of_retire32 hexec (hwf.trans (beq_iff_eq.mpr h)),
    fun h => traps_of_not_wellFormed (hwf.trans (beq_eq_false_iff_ne.mpr h))⟩

theorem exec_sm4ed (rd rs1 rs2 : RegIdx) (bs : BitVec 2) (s : State) : exec (.sm4ed rd rs1 rs2 bs) s =
    ifLegal (.sm4ed rd rs1 rs2 bs) s (s.retire32 rd (semSm4ed (s.src32 rs1) (s.src32 rs2) bs)) := rfl

theorem exec_sm4ks (rd rs1 rs2 : RegIdx) (bs : BitVec 2) (s : State) : exec (.sm4ks rd rs1 rs2 bs) s =
    ifLegal (.sm4ks rd rs1 rs2 bs) s (s.retire32 rd (semSm4ks (s.src32 rs1) (s.src32 rs2) bs)) := rfl

end Sys2Proof.Machine

/-! ### The statement -/

namespace Sys2Proof.Proofs

open Sys2Proof Sys2Proof.Machine

/-- Settles O10. Both instructions exist on either base and demand `rs1 = rd`: their words decode and they complete
exactly there, and the results `semSm4ed` and `semSm4ks` are by definition the terms of R110 and R111. -/
theorem sm4Results : Obligations.Sm4Results := by
  unfold Obligations.Sm4Results
  intro s rd rs1 rs2 bs
  have rowEd : HasRow s.base (encode (.sm4ed rd rs1 rs2 bs)) (.sm4ed rd rs1 rs2 bs) :=
    hasRow_encode (Laws.RowMatch.sm4ed rd rs1 rs2 bs) rfl rfl
  have rowKs : HasRow s.base (encode (.sm4ks rd rs1 rs2 bs)) (.sm4ks rd rs1 rs2 bs) :=
    hasRow_encode (Laws.RowMatch.sm4ks rd rs1 rs2 bs) rfl rfl
  obtain ⟨completesEd, trapsEd⟩ := exec_of_tied (rs1 := rs1) rfl rfl (exec_sm4ed rd rs1 rs2 bs s)
  obtain ⟨completesKs, trapsKs⟩ := exec_of_tied (rs1 := rs1) rfl rfl (exec_sm4ks rd rs1 rs2 bs s)
  exact ⟨rowEd.decode_eq_of_tied rfl, rowKs.decode_eq_of_tied rfl,
    fun h => ⟨completesEd h, completesKs h⟩, fun h => ⟨trapsEd h, trapsKs h⟩⟩

end Sys2Proof.Proofs

/-! # Proofs: SM3 (42_sm3.md) -/

/-! ### The word and the result of a legal instruction -/

namespace Sys2Proof

/-- The word of a legal instruction that has a row of the opcode map decodes to the instruction (30_encoding.md R75). -/
theorem decode_encode_of_rowMatch {b : Base} {i : Instr} (hmatch : Laws.RowMatch.Statement i)
    (hcsr : i.isCsrRead = false) (hwf : i.wellFormed b = true) : decode b (encode i) = .insn i := by
  obtain ⟨hon, hlegal⟩ : i.onBase b = true ∧ i.fieldsLegal = true := Bool.and_eq_true_iff.mp hwf
  rw [(hasRow_encode hmatch hcsr hon).decode_eq, if_pos hlegal]

end Sys2Proof

namespace Sys2Proof.Machine

theorem exec_sm3p0 (rd rs1 : RegIdx) (s : State) : exec (.sm3p0 rd rs1) s =
    ifLegal (.sm3p0 rd rs1) s (s.retire32 rd (semSm3p0 (s.src32 rs1))) := rfl

theorem exec_sm3p1 (rd rs1 : RegIdx) (s : State) : exec (.sm3p1 rd rs1) s =
    ifLegal (.sm3p1 rd rs1) s (s.retire32 rd (semSm3p1 (s.src32 rs1))) := rfl

end Sys2Proof.Machine

/-! ### The statement -/

namespace Sys2Proof.Proofs

open Sys2Proof Sys2Proof.Machine

/-- Settles O11. Both instructions are legal on either base for all registers, so that their words decode and they
complete; the results `semSm3p0` and `semSm3p1` are by definition the terms of R120 and R121. -/
theorem sm3Results : Obligations.Sm3Results := by
  unfold Obligations.Sm3Results
  rintro s rd rs1 _ rfl
  have legalP0 : (Instr.sm3p0 rd rs1).wellFormed s.base = true := rfl
  have legalP1 : (Instr.sm3p1 rd rs1).wellFormed s.base = true := rfl
  have wordP0 : decode s.base (encode (.sm3p0 rd rs1)) = .insn (.sm3p0 rd rs1) :=
    decode_encode_of_rowMatch (Laws.RowMatch.sm3p0 rd rs1) rfl legalP0
  have wordP1 : decode s.base (encode (.sm3p1 rd rs1)) = .insn (.sm3p1 rd rs1) :=
    decode_encode_of_rowMatch (Laws.RowMatch.sm3p1 rd rs1) rfl legalP1
  exact ⟨wordP0, wordP1, completes_of_retire32 (exec_sm3p0 rd rs1 s) legalP0,
    completes_of_retire32 (exec_sm3p1 rd rs1 s) legalP1⟩

end Sys2Proof.Proofs

/-! # Proofs: SHA-256 (43_sha256.md) -/

/-! ### The word together with the result of a legal instruction -/

namespace Sys2Proof.Machine

/-- A legal instruction that has a row of the opcode map and whose effect is `x[rd] <- sext_XLEN(z); pc <- pc + 4`: its
word decodes to it (30_encoding.md R75), and it completes with that effect. -/
theorem decodes_and_completes_of_retire32 {i : Instr} {s : State} {z : Word32} (hmatch : Laws.RowMatch.Statement i)
    (hcsr : i.isCsrRead = false) (hwf : i.wellFormed s.base = true)
    (hexec : exec i s = ifLegal i s (s.retire32 i.rd z)) :
    decode s.base (encode i) = .insn i ∧ Completes i s (sextXlen s.base z) :=
  ⟨decode_encode_of_rowMatch hmatch hcsr hwf, completes_of_retire32 hexec hwf⟩

theorem exec_sha256sum0 (rd rs1 : RegIdx) (s : State) : exec (.sha256sum0 rd rs1) s =
    ifLegal (.sha256sum0 rd rs1) s (s.retire32 rd (semSha256sum0 (s.src32 rs1))) := rfl

theorem exec_sha256sum1 (rd rs1 : RegIdx) (s : State) : exec (.sha256sum1 rd rs1) s =
    ifLegal (.sha256sum1 rd rs1) s (s.retire32 rd (semSha256sum1 (s.src32 rs1))) := rfl

theorem exec_sha256sig0 (rd rs1 : RegIdx) (s : State) : exec (.sha256sig0 rd rs1) s =
    ifLegal (.sha256sig0 rd rs1) s (s.retire32 rd (semSha256sig0 (s.src32 rs1))) := rfl

theorem exec_sha256sig1 (rd rs1 : RegIdx) (s : State) : exec (.sha256sig1 rd rs1) s =
    ifLegal (.sha256sig1 rd rs1) s (s.retire32 rd (semSha256sig1 (s.src32 rs1))) := rfl

end Sys2Proof.Machine

/-! ### The statement -/

namespace Sys2Proof.Proofs

open Sys2Proof Sys2Proof.Machine

/-- Settles O12. The four instructions are legal on either base for all registers, so that their words decode and they
complete; the results `semSha256sum0`, `semSha256sum1`, `semSha256sig0` and `semSha256sig1` are by definition the terms
of R130 to R133. -/
theorem sha256Results : Obligations.Sha256Results := by
  unfold Obligations.Sha256Results
  rintro s rd rs1 _ rfl
  obtain ⟨wordSum0, resultSum0⟩ :=
    decodes_and_completes_of_retire32 (Laws.RowMatch.sha256sum0 rd rs1) rfl rfl (exec_sha256sum0 rd rs1 s)
  obtain ⟨wordSum1, resultSum1⟩ :=
    decodes_and_completes_of_retire32 (Laws.RowMatch.sha256sum1 rd rs1) rfl rfl (exec_sha256sum1 rd rs1 s)
  obtain ⟨wordSig0, resultSig0⟩ :=
    decodes_and_completes_of_retire32 (Laws.RowMatch.sha256sig0 rd rs1) rfl rfl (exec_sha256sig0 rd rs1 s)
  obtain ⟨wordSig1, resultSig1⟩ :=
    decodes_and_completes_of_retire32 (Laws.RowMatch.sha256sig1 rd rs1) rfl rfl (exec_sha256sig1 rd rs1 s)
  exact ⟨wordSum0, wordSum1, wordSig0, wordSig1, resultSum0, resultSum1, resultSig0, resultSig1⟩

end Sys2Proof.Proofs

/-! # Proofs: AES on RV32 (44_aes32.md) -/

/-! ### The accumulating form on RV32 -/

namespace Sys2Proof.Machine

@[simp] theorem sextXlen_rv32 (z : Word32) : sextXlen .rv32 z = z.setWidth 64 := rfl

/-- The accumulating form with its operands in the order of 44_aes32.md R140 to R143. -/
theorem accumulate_eq (a y : Word32) (bs : BitVec 2) :
    accumulate a y bs = a ^^^ y.rotateLeft (8 * bs.toNat) :=
  BitVec.xor_comm _ _

/-- What the accumulating instructions have in common on RV32: the word is the instruction exactly where `rs1 = rd`
(30_encoding.md R76), where `exec` exclusive-ors the rotated `y` into the accumulator, and it takes the Illegal Opcode
Exception elsewhere. -/
theorem decode_and_exec_of_accumulates {i : Instr} {s : State} {rs1 : RegIdx} {a y : Word32} {bs : BitVec 2}
    (hbase : s.base = .rv32) (hmatch : Laws.RowMatch.Statement i) (hcsr : i.isCsrRead = false)
    (hon : i.onBase .rv32 = true) (htied : i.fieldsLegal = (rs1 == i.rd))
    (hexec : exec i s = ifLegal i s (s.retire32 i.rd (accumulate a y bs))) :
    decode .rv32 (encode i) = (if rs1 = i.rd then .insn i else .illegalOpcode) ∧
      (rs1 = i.rd → Completes i s ((a ^^^ y.rotateLeft (8 * bs.toNat)).setWidth 64)) ∧
      (rs1 ≠ i.rd → Traps i s) := by
  obtain ⟨completes, traps⟩ := exec_of_tied (hbase ▸ hon) htied hexec
  rw [hbase, sextXlen_rv32, accumulate_eq] at completes
  exact ⟨(hasRow_encode hmatch hcsr hon).decode_eq_of_tied htied, completes, traps⟩

theorem exec_aes32esmi (rd rs1 rs2 : RegIdx) (bs : BitVec 2) (s : State) : exec (.aes32esmi rd rs1 rs2 bs) s =
    ifLegal (.aes32esmi rd rs1 rs2 bs) s (s.retire32 rd (semAes32esmi (s.src32 rs1) (s.src32 rs2) bs)) := rfl

theorem exec_aes32esi (rd rs1 rs2 : RegIdx) (bs : BitVec 2) (s : State) : exec (.aes32esi rd rs1 rs2 bs) s =
    ifLegal (.aes32esi rd rs1 rs2 bs) s (s.retire32 rd (semAes32esi (s.src32 rs1) (s.src32 rs2) bs)) := rfl

theorem exec_aes32dsmi (rd rs1 rs2 : RegIdx) (bs : BitVec 2) (s : State) : exec (.aes32dsmi rd rs1 rs2 bs) s =
    ifLegal (.aes32dsmi rd rs1 rs2 bs) s (s.retire32 rd (semAes32dsmi (s.src32 rs1) (s.src32 rs2) bs)) := rfl

theorem exec_aes32dsi (rd rs1 rs2 : RegIdx) (bs : BitVec 2) (s : State) : exec (.aes32dsi rd rs1 rs2 bs) s =
    ifLegal (.aes32dsi rd rs1 rs2 bs) s (s.retire32 rd (semAes32dsi (s.src32 rs1) (s.src32 rs2) bs)) := rfl

end Sys2Proof.Machine

/-! ### The statement -/

namespace Sys2Proof.Proofs

open Sys2Proof Sys2Proof.Machine

/-- Settles O13. The four instructions exist on RV32, demand `rs1 = rd` and accumulate: `semAes32esmi`, `semAes32esi`,
`semAes32dsmi` and `semAes32dsi` differ only in the word `y` of R140 to R143 that they rotate. -/
theorem aes32Results : Obligations.Aes32Results := by
  unfold Obligations.Aes32Results
  rintro s rd rs1 rs2 bs _ _ hbase rfl rfl
  obtain ⟨wordEsmi, completesEsmi, trapsEsmi⟩ := decode_and_exec_of_accumulates (rs1 := rs1) hbase
    (Laws.RowMatch.aes32esmi rd rs1 rs2 bs) rfl rfl rfl (exec_aes32esmi rd rs1 rs2 bs s)
  obtain ⟨wordEsi, completesEsi, trapsEsi⟩ := decode_and_exec_of_accumulates (rs1 := rs1) hbase
    (Laws.RowMatch.aes32esi rd rs1 rs2 bs) rfl rfl rfl (exec_aes32esi rd rs1 rs2 bs s)
  obtain ⟨wordDsmi, completesDsmi, trapsDsmi⟩ := decode_and_exec_of_accumulates (rs1 := rs1) hbase
    (Laws.RowMatch.aes32dsmi rd rs1 rs2 bs) rfl rfl rfl (exec_aes32dsmi rd rs1 rs2 bs s)
  obtain ⟨wordDsi, completesDsi, trapsDsi⟩ := decode_and_exec_of_accumulates (rs1 := rs1) hbase
    (Laws.RowMatch.aes32dsi rd rs1 rs2 bs) rfl rfl rfl (exec_aes32dsi rd rs1 rs2 bs s)
  exact ⟨⟨wordEsmi, wordEsi, wordDsmi, wordDsi⟩,
    fun h => ⟨completesEsmi h, completesEsi h, completesDsmi h, completesDsi h⟩,
    fun h => ⟨trapsEsmi h, trapsEsi h, trapsDsmi h, trapsDsi h⟩⟩

end Sys2Proof.Proofs

/-! # Proofs: AES on RV64 (46_aes64.md) -/

/-! ### The word together with the 64-bit result of an RV64 instruction -/

namespace Sys2Proof.Machine

/-- A legal instruction on RV64 whose effect is `x[rd] <- v; pc <- pc + 4`: the 64-bit result is written as it stands. -/
theorem completes_of_retire_rv64 {i : Instr} {s : State} {v : Word64} (hbase : s.base = .rv64)
    (hwf : i.wellFormed .rv64 = true) (hexec : exec i s = ifLegal i s (s.retire i.rd v)) : Completes i s v := by
  rw [ifLegal, hbase, if_pos hwf] at hexec
  have hret : Retired s (s.retire i.rd v) i.rd (fitXlen s.base v) := s.retire_spec i.rd v
  rw [hbase, fitXlen_rv64] at hret
  exact ⟨_, hexec, hret, s.retire_draws _ _⟩

/-- A legal instruction on RV64 that has a row of the opcode map and whose effect is `x[rd] <- v; pc <- pc + 4`: its
word decodes to it (30_encoding.md R75), and it completes with that effect. -/
theorem decodes_and_completes_of_retire_rv64 {i : Instr} {s : State} {v : Word64} (hbase : s.base = .rv64)
    (hmatch : Laws.RowMatch.Statement i) (hcsr : i.isCsrRead = false) (hwf : i.wellFormed .rv64 = true)
    (hexec : exec i s = ifLegal i s (s.retire i.rd v)) :
    decode .rv64 (encode i) = .insn i ∧ Completes i s v :=
  ⟨decode_encode_of_rowMatch hmatch hcsr hwf, completes_of_retire_rv64 hbase hwf hexec⟩

/-! ### What `exec` does with each instruction -/

theorem exec_aes64ks1i (rd rs1 : RegIdx) (rnum : BitVec 4) (s : State) : exec (.aes64ks1i rd rs1 rnum) s =
    ifLegal (.aes64ks1i rd rs1 rnum) s (s.retire rd (semAes64ks1i (s.readX rs1) rnum)) := rfl

theorem exec_aes64ks2 (rd rs1 rs2 : RegIdx) (s : State) : exec (.aes64ks2 rd rs1 rs2) s =
    ifLegal (.aes64ks2 rd rs1 rs2) s (s.retire rd (semAes64ks2 (s.readX rs1) (s.readX rs2))) := rfl

theorem exec_aes64im (rd rs1 : RegIdx) (s : State) : exec (.aes64im rd rs1) s =
    ifLegal (.aes64im rd rs1) s (s.retire rd (semAes64im (s.readX rs1))) := rfl

theorem exec_aes64esm (rd rs1 rs2 : RegIdx) (s : State) : exec (.aes64esm rd rs1 rs2) s =
    ifLegal (.aes64esm rd rs1 rs2) s (s.retire rd (semAes64esm (s.readX rs1) (s.readX rs2))) := rfl

theorem exec_aes64es (rd rs1 rs2 : RegIdx) (s : State) : exec (.aes64es rd rs1 rs2) s =
    ifLegal (.aes64es rd rs1 rs2) s (s.retire rd (semAes64es (s.readX rs1) (s.readX rs2))) := rfl

theorem exec_aes64dsm (rd rs1 rs2 : RegIdx) (s : State) : exec (.aes64dsm rd rs1 rs2) s =
    ifLegal (.aes64dsm rd rs1 rs2) s (s.retire rd (semAes64dsm (s.readX rs1) (s.readX rs2))) := rfl

theorem exec_aes64ds (rd rs1 rs2 : RegIdx) (s : State) : exec (.aes64ds rd rs1 rs2) s =
    ifLegal (.aes64ds rd rs1 rs2) s (s.retire rd (semAes64ds (s.readX rs1) (s.readX rs2))) := rfl

/-! ### The range of `rnum` -/

/-- The one field requirement of the RV64 AES instructions (30_encoding.md R77, decision D14). -/
theorem fieldsLegal_aes64ks1i (rd rs1 : RegIdx) (rnum : BitVec 4) :
    (Instr.aes64ks1i rd rs1 rnum).fieldsLegal = decide (rnum.toNat ≤ 10) := rfl

theorem wellFormed_aes64ks1i_rv64 (rd rs1 : RegIdx) (rnum : BitVec 4) :
    (Instr.aes64ks1i rd rs1 rnum).wellFormed .rv64 = decide (rnum.toNat ≤ 10) := rfl

end Sys2Proof.Machine

/-! ### The statements -/

namespace Sys2Proof.Proofs

open Sys2Proof Sys2Proof.Machine

/-- Settles O15. The word has the fixed bits of the instruction's row for every `rnum`, and the instruction is legal
exactly for `rnum` up to `0xA`; the result `semAes64ks1i` is by definition the term of R160. -/
theorem aes64Ks1iResult : Obligations.Aes64Ks1iResult := by
  unfold Obligations.Aes64Ks1iResult
  rintro s rd rs1 rnum _ _ _ hbase rfl rfl rfl
  have row : HasRow .rv64 (encode (.aes64ks1i rd rs1 rnum)) (.aes64ks1i rd rs1 rnum) :=
    hasRow_encode (Laws.RowMatch.aes64ks1i rd rs1 rnum) rfl rfl
  refine ⟨?word, fun hle => ?completes, fun hgt => ?traps⟩
  case word =>
    refine row.decode_eq.trans ?_
    simp only [fieldsLegal_aes64ks1i, decide_eq_true_eq]
  case completes =>
    have legal := (wellFormed_aes64ks1i_rv64 rd rs1 rnum).trans (decide_eq_true hle)
    exact completes_of_retire_rv64 hbase legal (exec_aes64ks1i rd rs1 rnum s)
  case traps =>
    have illegal := (wellFormed_aes64ks1i_rv64 rd rs1 rnum).trans (decide_eq_false (Nat.not_le.mpr hgt))
    exact traps_of_not_wellFormed (hbase ▸ illegal)

/-- Settles O16. Both instructions are legal on RV64 for all registers, so that their words decode and they complete;
the results `semAes64ks2` and `semAes64im` are by definition the terms of R161 and R162. -/
theorem aes64Ks2AndImResults : Obligations.Aes64Ks2AndImResults := by
  unfold Obligations.Aes64Ks2AndImResults
  rintro s rd rs1 rs2 _ _ hbase rfl rfl
  obtain ⟨wordKs2, resultKs2⟩ := decodes_and_completes_of_retire_rv64 hbase
    (Laws.RowMatch.aes64ks2 rd rs1 rs2) rfl rfl (exec_aes64ks2 rd rs1 rs2 s)
  obtain ⟨wordIm, resultIm⟩ := decodes_and_completes_of_retire_rv64 hbase
    (Laws.RowMatch.aes64im rd rs1) rfl rfl (exec_aes64im rd rs1 s)
  exact ⟨wordKs2, wordIm, resultKs2, resultIm⟩

/-- Settles O17. The four instructions are legal on RV64 for all registers, `rs1 = rd` not being required, so that their
words decode and they complete; `semAes64esm`, `semAes64es`, `semAes64dsm` and `semAes64ds` are by definition the terms
of R163 to R166, which give ShiftRows `x[rs2]` as the upper half of the state. -/
theorem aes64RoundResults : Obligations.Aes64RoundResults := by
  unfold Obligations.Aes64RoundResults
  rintro s rd rs1 rs2 _ _ hbase rfl rfl
  obtain ⟨wordEsm, resultEsm⟩ := decodes_and_completes_of_retire_rv64 hbase
    (Laws.RowMatch.aes64esm rd rs1 rs2) rfl rfl (exec_aes64esm rd rs1 rs2 s)
  obtain ⟨wordEs, resultEs⟩ := decodes_and_completes_of_retire_rv64 hbase
    (Laws.RowMatch.aes64es rd rs1 rs2) rfl rfl (exec_aes64es rd rs1 rs2 s)
  obtain ⟨wordDsm, resultDsm⟩ := decodes_and_completes_of_retire_rv64 hbase
    (Laws.RowMatch.aes64dsm rd rs1 rs2) rfl rfl (exec_aes64dsm rd rs1 rs2 s)
  obtain ⟨wordDs, resultDs⟩ := decodes_and_completes_of_retire_rv64 hbase
    (Laws.RowMatch.aes64ds rd rs1 rs2) rfl rfl (exec_aes64ds rd rs1 rs2 s)
  exact ⟨⟨wordEsm, wordEs, wordDsm, wordDs⟩, resultEsm, resultEs, resultDsm, resultDs⟩

end Sys2Proof.Proofs

/-! # Proofs: SHA-512 on RV64 (47_sha512_rv64.md) -/

/-! ### What `exec` does with each instruction -/

namespace Sys2Proof.Machine

theorem exec_sha512sum0 (rd rs1 : RegIdx) (s : State) : exec (.sha512sum0 rd rs1) s =
    ifLegal (.sha512sum0 rd rs1) s (s.retire rd (semSha512sum0 (s.readX rs1))) := rfl

theorem exec_sha512sum1 (rd rs1 : RegIdx) (s : State) : exec (.sha512sum1 rd rs1) s =
    ifLegal (.sha512sum1 rd rs1) s (s.retire rd (semSha512sum1 (s.readX rs1))) := rfl

theorem exec_sha512sig0 (rd rs1 : RegIdx) (s : State) : exec (.sha512sig0 rd rs1) s =
    ifLegal (.sha512sig0 rd rs1) s (s.retire rd (semSha512sig0 (s.readX rs1))) := rfl

theorem exec_sha512sig1 (rd rs1 : RegIdx) (s : State) : exec (.sha512sig1 rd rs1) s =
    ifLegal (.sha512sig1 rd rs1) s (s.retire rd (semSha512sig1 (s.readX rs1))) := rfl

end Sys2Proof.Machine

/-! ### The statement -/

namespace Sys2Proof.Proofs

open Sys2Proof Sys2Proof.Machine

/-- Settles O18. The four instructions are legal on RV64 for all registers, so that their words decode and they
complete; the results `semSha512sum0`, `semSha512sum1`, `semSha512sig0` and `semSha512sig1` are by definition the terms
of R180 to R183 on the 64 bits of `x[rs1]`. -/
theorem sha512Rv64Results : Obligations.Sha512Rv64Results := by
  unfold Obligations.Sha512Rv64Results
  rintro s rd rs1 _ hbase rfl
  obtain ⟨wordSum0, resultSum0⟩ := decodes_and_completes_of_retire_rv64 hbase
    (Laws.RowMatch.sha512sum0 rd rs1) rfl rfl (exec_sha512sum0 rd rs1 s)
  obtain ⟨wordSum1, resultSum1⟩ := decodes_and_completes_of_retire_rv64 hbase
    (Laws.RowMatch.sha512sum1 rd rs1) rfl rfl (exec_sha512sum1 rd rs1 s)
  obtain ⟨wordSig0, resultSig0⟩ := decodes_and_completes_of_retire_rv64 hbase
    (Laws.RowMatch.sha512sig0 rd rs1) rfl rfl (exec_sha512sig0 rd rs1 s)
  obtain ⟨wordSig1, resultSig1⟩ := decodes_and_completes_of_retire_rv64 hbase
    (Laws.RowMatch.sha512sig1 rd rs1) rfl rfl (exec_sha512sig1 rd rs1 s)
  exact ⟨wordSum0, wordSum1, wordSig0, wordSig1, resultSum0, resultSum1, resultSig0, resultSig1⟩

end Sys2Proof.Proofs

/-! # Proofs: the AES S-boxes (48_crypto_tables.md R190 to R192) -/

namespace Sys2Proof.Machine

/-! ### The product of the field (R190)

What uniqueness of inverses takes: `1` is a left unit, and right factors may be swapped. The latter holds because
`fieldMul · c` is a sum of powers of `xtime`, which commutes with every additive map that commutes with `xtime`. -/

theorem xtime_xor (a b : Byte) : xtime (a ^^^ b) = xtime a ^^^ xtime b := by
  have reduction : ∀ p q : Bool, (if (p ^^ q) then 0x1B#8 else 0x00#8) =
      (if p then 0x1B#8 else 0x00#8) ^^^ (if q then 0x1B#8 else 0x00#8) := by decide
  simp only [xtime, BitVec.shiftLeft_xor_distrib, BitVec.getLsbD_xor, reduction]
  ac_rfl

theorem map_fieldMul {T : Byte → Byte} (map_xor : ∀ a b, T (a ^^^ b) = T a ^^^ T b)
    (map_xtime : ∀ b, T (xtime b) = xtime (T b)) (b c : Byte) : T (fieldMul b c) = fieldMul (T b) c := by
  have map_zero : T 0#8 = 0#8 := by simpa using map_xor 0#8 0#8
  simp only [fieldMul, gfmul, map_xor, map_xtime, map_zero, apply_ite T]

theorem xor_fieldMul (a b c : Byte) : fieldMul (a ^^^ b) c = fieldMul a c ^^^ fieldMul b c := by
  have ite_xor : ∀ (p : Bool) (x y : Byte), (if p then x ^^^ y else 0#8) =
      (if p then x else 0#8) ^^^ (if p then y else 0#8) := by intro p x y; cases p <;> simp
  simp only [fieldMul, gfmul, xtime_xor, ite_xor]
  ac_rfl

theorem xtime_fieldMul (b c : Byte) : xtime (fieldMul b c) = fieldMul (xtime b) c :=
  map_fieldMul xtime_xor (fun _ => rfl) b c

theorem fieldMul_right_comm (a b c : Byte) : fieldMul (fieldMul a b) c = fieldMul (fieldMul a c) b :=
  map_fieldMul (T := (fieldMul · c)) (xor_fieldMul · · c) (fun a => (xtime_fieldMul a c).symm) a b

theorem one_fieldMul : ∀ b : Byte, fieldMul 1#8 b = b := by decide

theorem zero_fieldMul (c : Byte) : fieldMul 0#8 c = 0#8 := by simpa using xor_fieldMul 0#8 0#8 c

/-- A byte has at most one inverse: `c = (b * d) * c = (b * c) * d = d`. -/
theorem fieldMul_eq_one_unique {b c d : Byte} (hc : fieldMul b c = 1#8) (hd : fieldMul b d = 1#8) : c = d :=
  calc c = fieldMul (fieldMul b d) c := by rw [hd, one_fieldMul]
    _ = fieldMul (fieldMul b c) d := fieldMul_right_comm b d c
    _ = d := by rw [hc, one_fieldMul]

/-! ### The tables (R191, R192) -/

/-- The inverse of the affine map `A` of R191: bit `i` is `v[i+2] ^ v[i+5] ^ v[i+7] ^ d[i]` with the indices modulo 8
and `d = 0x05`. Applied to an entry of the forward table it gives the inverse that the entry was computed from. -/
def aesAffineInv (v : Byte) : Byte := v.rotateRight 2 ^^^ v.rotateRight 5 ^^^ v.rotateRight 7 ^^^ 0x05#8

theorem aesAffine_aesAffineInv : ∀ v : Byte, aesAffine (aesAffineInv v) = v := by decide

/-- The forward table's 255 entries for bytes other than 0, each checked by one product. -/
theorem fieldMul_aesAffineInv_aesSboxFwd :
    ∀ b : Byte, b ≠ 0#8 → fieldMul b (aesAffineInv (aesSboxFwd b)) = 1#8 := by decide

theorem aesSboxFwd_eq_of_fieldMul_eq_one {b c : Byte} (hc : fieldMul b c = 1#8) :
    aesSboxFwd b = aesAffine c := by
  have hb : b ≠ 0#8 := by
    rintro rfl
    exact absurd ((zero_fieldMul c).symm.trans hc) (by decide)
  have hinv : c = aesAffineInv (aesSboxFwd b) :=
    fieldMul_eq_one_unique hc (fieldMul_aesAffineInv_aesSboxFwd b hb)
  rw [hinv, aesAffine_aesAffineInv]

theorem aesSboxInv_leftInverse : Function.LeftInverse aesSboxInv aesSboxFwd := by
  unfold Function.LeftInverse
  decide

/-- A left inverse on a finite type is a right inverse. -/
theorem aesSboxInv_rightInverse : Function.RightInverse aesSboxInv aesSboxFwd :=
  aesSboxInv_leftInverse.rightInverse_of_card_le le_rfl

end Sys2Proof.Machine

/-! ### The statement -/

namespace Sys2Proof.Proofs

open Sys2Proof Sys2Proof.Machine

/-- Settles O20. The inverse of `b` is read off the forward table through the inverse of the affine map, and it is the
only one; the inverse table is checked on one side, the other follows from there being finitely many bytes. -/
theorem aesSboxIsAffineOfFieldInverse : Obligations.AesSboxIsAffineOfFieldInverse := by
  unfold Obligations.AesSboxIsAffineOfFieldInverse
  have zeroEntry : aesSboxFwd 0#8 = aesAffine 0#8 := by decide
  exact ⟨fun b hb => ⟨_, fieldMul_aesAffineInv_aesSboxFwd b hb⟩, fun _ _ => aesSboxFwd_eq_of_fieldMul_eq_one,
    zeroEntry, fun b => ⟨aesSboxInv_leftInverse b, aesSboxInv_rightInverse b⟩⟩

end Sys2Proof.Proofs

/-! # Proofs: the Illegal Opcode Exception (60_exceptions.md R204) -/

/-! ### The end of a run, and the words that end it -/

namespace Sys2Proof.Machine

/-- The fault record is terminal: no step follows a recorded exception, whatever stands at `pc` (R204, R207). -/
theorem step_eq_runEnded {s : State} {f : FaultRecord} (hfault : s.fault = some f) :
    step s = .fault .runEnded := by
  simp only [step, hfault]

/-- In particular none follows the step that took the exception. -/
theorem Raised.step_eq_runEnded {s t : State} {w : Word32} (h : Raised s t w) : step t = .fault .runEnded :=
  Machine.step_eq_runEnded h.fault

end Sys2Proof.Machine

namespace Sys2Proof

/-- Both answers by which the decoder rejects a word (R200) say that it is no instruction of the base. -/
theorem decode_ne_insn_of_rejected {b : Base} {w : Word32}
    (h : decode b w = .illegalOpcode ∨ decode b w = .notScalarCrypto) (i : Instr) : decode b w ≠ .insn i := by
  obtain hillegal | hother := h
  · rw [hillegal]
    exact Decoded.noConfusion
  · rw [hother]
    exact Decoded.noConfusion

end Sys2Proof

/-! ### The statement -/

namespace Sys2Proof.Proofs

open Sys2Proof Sys2Proof.Machine

/-- Settles O29. A rejected word makes the step answer `raiseIllegal`; what that leaves is the shared operation's own
rule, and the record it fills is all the next step looks at. -/
theorem illegalWordFillsFaultRecordAndEndsRun : Obligations.IllegalWordFillsFaultRecordAndEndsRun := by
  unfold Obligations.IllegalWordFillsFaultRecordAndEndsRun
  intro s w hfault hfetch hrejected
  have hstep : step s = .next (s.raiseIllegal w) :=
    step_eq_raiseIllegal hfault hfetch (decode_ne_insn_of_rejected hrejected)
  have hraised : Raised s (s.raiseIllegal w) w := s.raiseIllegal_spec w
  exact ⟨s.raiseIllegal w, hstep, hraised, hraised.step_eq_runEnded⟩

end Sys2Proof.Proofs

/-! # Proofs: the round trip of decoder and encoder (30_encoding.md R74, R75, R81) -/

namespace Sys2Proof

/-! ### The two CSR reads (R81) -/

/-- The two CSR numbers are different, whatever they are (40_entropy_pseudo_ops.md R101): the gap is from 1 to 4095. -/
theorem csrGetnoise_ne_csrPollentropy : Config.csrGetnoise ≠ Config.csrPollentropy := by
  intro h
  have hgap := Config.csrGetnoiseGap.isLt
  have hsum : Config.csrPollentropy + BitVec.ofNat 12 (Config.csrGetnoiseGap.val + 1) = Config.csrPollentropy := h
  have hzero := congrArg BitVec.toNat (BitVec.add_right_eq_self.mp hsum)
  rw [BitVec.toNat_ofNat, Nat.mod_eq_of_lt (by omega)] at hzero
  exact Nat.succ_ne_zero _ hzero

/-- A row's fixed bits, read in any field of the word. -/
theorem Row.extractLsb'_of_fits {r : Row} {w : Word32} (h : r.fits w = true) (start len : Nat) :
    w.extractLsb' start len &&& r.mask.extractLsb' start len = r.patt.extractLsb' start len := by
  rw [← BitVec.extractLsb'_and, beq_iff_eq.mp h]

/-- Every row fixes all seven bits of the major opcode, so a word that fits has the row's. -/
theorem opcode_of_fits {r : Row} (hr : r ∈ opcodeMap) {w : Word32} (h : r.fits w = true) :
    w.extractLsb' 0 7 = r.patt.extractLsb' 0 7 ∧ w.extractLsb' 0 7 ≠ Config.opSystem := by
  have hrow := List.all_eq_true.mp opcodeMap_opcode r hr
  simp only [Bool.and_eq_true, beq_iff_eq, Bool.not_eq_true', beq_eq_false_iff_ne] at hrow
  have hw := Row.extractLsb'_of_fits h 0 7
  rw [hrow.1, and_ones7] at hw
  exact ⟨hw, hw ▸ hrow.2⟩

theorem decode_of_opSystem (b : Base) {w : Word32} (h : w.extractLsb' 0 7 = Config.opSystem) :
    decode b w = decodeCsrRead w :=
  decode_of_no_fit fun _ hr _ => Bool.eq_false_iff.mpr fun hfits => (opcode_of_fits hr hfits).2 h

theorem decode_csrPollentropy (b : Base) (rd : RegIdx) :
    decode b (wordCsrRead Config.csrPollentropy rd) = .insn (.pollentropy rd) := by
  rw [decode_of_opSystem b (opcode_wordCsrRead _ _)]
  simp [decodeCsrRead, opcode_wordCsrRead, middle_wordCsrRead]

theorem decode_csrGetnoise (b : Base) (rd : RegIdx) :
    decode b (wordCsrRead Config.csrGetnoise rd) = .insn (.getnoise rd) := by
  rw [decode_of_opSystem b (opcode_wordCsrRead _ _)]
  simp [decodeCsrRead, opcode_wordCsrRead, middle_wordCsrRead, csrGetnoise_ne_csrPollentropy]

/-! ### Every instruction and its row -/

theorem rowMatch : ∀ i : Instr, Laws.RowMatch.Statement i
  | .sm4ed .. => Laws.RowMatch.sm4ed ..
  | .sm4ks .. => Laws.RowMatch.sm4ks ..
  | .sm3p0 .. => Laws.RowMatch.sm3p0 ..
  | .sm3p1 .. => Laws.RowMatch.sm3p1 ..
  | .sha256sum0 .. => Laws.RowMatch.sha256sum0 ..
  | .sha256sum1 .. => Laws.RowMatch.sha256sum1 ..
  | .sha256sig0 .. => Laws.RowMatch.sha256sig0 ..
  | .sha256sig1 .. => Laws.RowMatch.sha256sig1 ..
  | .aes32esmi .. => Laws.RowMatch.aes32esmi ..
  | .aes32esi .. => Laws.RowMatch.aes32esi ..
  | .aes32dsmi .. => Laws.RowMatch.aes32dsmi ..
  | .aes32dsi .. => Laws.RowMatch.aes32dsi ..
  | .sha512sum0r .. => Laws.RowMatch.sha512sum0r ..
  | .sha512sum1r .. => Laws.RowMatch.sha512sum1r ..
  | .sha512sig0l .. => Laws.RowMatch.sha512sig0l ..
  | .sha512sig0h .. => Laws.RowMatch.sha512sig0h ..
  | .sha512sig1l .. => Laws.RowMatch.sha512sig1l ..
  | .sha512sig1h .. => Laws.RowMatch.sha512sig1h ..
  | .aes64ks1i .. => Laws.RowMatch.aes64ks1i ..
  | .aes64ks2 .. => Laws.RowMatch.aes64ks2 ..
  | .aes64im .. => Laws.RowMatch.aes64im ..
  | .aes64esm .. => Laws.RowMatch.aes64esm ..
  | .aes64es .. => Laws.RowMatch.aes64es ..
  | .aes64dsm .. => Laws.RowMatch.aes64dsm ..
  | .aes64ds .. => Laws.RowMatch.aes64ds ..
  | .sha512sum0 .. => Laws.RowMatch.sha512sum0 ..
  | .sha512sum1 .. => Laws.RowMatch.sha512sum1 ..
  | .sha512sig0 .. => Laws.RowMatch.sha512sig0 ..
  | .sha512sig1 .. => Laws.RowMatch.sha512sig1 ..
  | .pollentropy .. => Laws.RowMatch.pollentropy ..
  | .getnoise .. => Laws.RowMatch.getnoise ..

theorem decode_encode {b : Base} {i : Instr} (hwf : i.wellFormed b = true) : decode b (encode i) = .insn i := by
  cases hcsr : i.isCsrRead with
  | false => exact decode_encode_of_rowMatch (rowMatch i) hcsr hwf
  | true =>
    cases i with
    | pollentropy rd => exact decode_csrPollentropy b rd
    | getnoise rd => exact decode_csrGetnoise b rd
    | _ => cases hcsr

/-! ### A word is the concatenation of its fields -/

theorem append_inj {m n : Nat} {x x' : BitVec m} {y y' : BitVec n} : x ++ y = x' ++ y' ↔ x = x' ∧ y = y' := by
  refine ⟨fun h => ⟨?high, ?low⟩, fun ⟨hx, hy⟩ => hx ▸ hy ▸ rfl⟩
  case high => simpa [BitVec.extractLsb'_append_eq_left] using congrArg (BitVec.extractLsb' n m) h
  case low => simpa [BitVec.extractLsb'_append_eq_right] using congrArg (BitVec.extractLsb' 0 n) h

/-- The masked fields of a word of six fields, read one by one. -/
theorem fixed_fields6 {u v w x y z : Nat} (a : BitVec u) (b : BitVec v) (c : BitVec w) (d : BitVec x) (e : BitVec y)
    (f : BitVec z) {ma pa : BitVec u} {mb pb : BitVec v} {mc pc : BitVec w} {md pd : BitVec x} {me pe : BitVec y}
    {mf pf : BitVec z}
    (h : (a ++ b ++ c ++ d ++ e ++ f) &&& (ma ++ mb ++ mc ++ md ++ me ++ mf) = pa ++ pb ++ pc ++ pd ++ pe ++ pf) :
    a &&& ma = pa ∧ b &&& mb = pb ∧ c &&& mc = pc ∧ d &&& md = pd ∧ e &&& me = pe ∧ f &&& mf = pf := by
  simpa only [and_append6, append_inj, and_assoc] using h

theorem fixed_fields7 {t u v w x y z : Nat} (o : BitVec t) (a : BitVec u) (b : BitVec v) (c : BitVec w) (d : BitVec x)
    (e : BitVec y) (f : BitVec z) {mo po : BitVec t} {ma pa : BitVec u} {mb pb : BitVec v} {mc pc : BitVec w}
    {md pd : BitVec x} {me pe : BitVec y} {mf pf : BitVec z}
    (h : (o ++ a ++ b ++ c ++ d ++ e ++ f) &&& (mo ++ ma ++ mb ++ mc ++ md ++ me ++ mf) =
      po ++ pa ++ pb ++ pc ++ pd ++ pe ++ pf) :
    o &&& mo = po ∧ a &&& ma = pa ∧ b &&& mb = pb ∧ c &&& mc = pc ∧ d &&& md = pd ∧ e &&& me = pe ∧
      f &&& mf = pf := by
  simpa only [and_append7, append_inj, and_assoc] using h

section Fields

variable (w : Word32)

/-- Two neighbouring fields of a word are one field. -/
theorem join_fields {l h : Nat} (mid lo : Nat) (hmid : mid = lo + l) :
    w.extractLsb' mid h ++ w.extractLsb' lo l = w.extractLsb' lo (h + l) :=
  BitVec.extractLsb'_append_extractLsb'_eq_extractLsb' hmid

theorem append_fields : w.extractLsb' 25 7 ++ rs2Of w ++ rs1Of w ++ w.extractLsb' 12 3 ++ rdOf w ++
    w.extractLsb' 0 7 = w := by
  unfold rs2Of rs1Of rdOf
  rw [join_fields w 25 20 rfl, join_fields w 20 15 rfl, join_fields w 15 12 rfl, join_fields w 12 7 rfl,
    join_fields w 7 0 rfl]
  exact BitVec.extractLsb'_eq_self

theorem append_fields_rbs : bsOf w ++ w.extractLsb' 25 5 ++ rs2Of w ++ rs1Of w ++ w.extractLsb' 12 3 ++ rdOf w ++
    w.extractLsb' 0 7 = w := by
  unfold bsOf
  rw [join_fields w 30 25 rfl]
  exact append_fields w

theorem append_fields_ks1i : w.extractLsb' 25 7 ++ w.extractLsb' 24 1 ++ rnumOf w ++ rs1Of w ++ w.extractLsb' 12 3 ++
    rdOf w ++ w.extractLsb' 0 7 = w := by
  unfold rnumOf rs1Of rdOf
  rw [join_fields w 25 24 rfl, join_fields w 24 20 rfl, join_fields w 20 15 rfl, join_fields w 15 12 rfl,
    join_fields w 12 7 rfl, join_fields w 7 0 rfl]
  exact BitVec.extractLsb'_eq_self

theorem append_fields_csrRead : csrOf w ++ w.extractLsb' 12 8 ++ rdOf w ++ w.extractLsb' 0 7 = w := by
  unfold csrOf rdOf
  rw [join_fields w 20 12 rfl, join_fields w 12 7 rfl, join_fields w 7 0 rfl]
  exact BitVec.extractLsb'_eq_self

end Fields

/-! ### A word with a row's fixed bits is the row's word with the word's own fields -/

section Fits

variable {bases : List Base} {f5 sel : BitVec 5} {f7 : BitVec 7} {w : Word32}

/-- The fields of the word that `fits` compares. -/
theorem Row.eq_of_fits {r : Row} {x : Word32} (h : r.fits w = true) (hx : x = w) : x &&& r.mask = r.patt :=
  hx ▸ beq_iff_eq.mp h

theorem wordRbs_of_fits {mk : RegIdx → RegIdx → RegIdx → BitVec 2 → Instr}
    (h : (Row.rbs bases f5 mk).fits w = true) : wordRbs (bsOf w) f5 (rs2Of w) (rs1Of w) (rdOf w) = w := by
  obtain ⟨-, hf5, -, -, hf3, -, hop⟩ := fixed_fields7 (bsOf w) (w.extractLsb' 25 5) (rs2Of w) (rs1Of w)
    (w.extractLsb' 12 3) (rdOf w) (w.extractLsb' 0 7) (Row.eq_of_fits h (append_fields_rbs w))
  rw [and_ones5] at hf5
  rw [and_ones3] at hf3
  rw [and_ones7] at hop
  rw [wordRbs, ← hf5, ← hf3, ← hop, append_fields_rbs]

theorem wordR_of_fits {mk : RegIdx → RegIdx → RegIdx → Instr}
    (h : (Row.r bases f7 mk).fits w = true) : wordR f7 (rs2Of w) (rs1Of w) (rdOf w) = w := by
  obtain ⟨hf7, -, -, hf3, -, hop⟩ := fixed_fields6 (w.extractLsb' 25 7) (rs2Of w) (rs1Of w)
    (w.extractLsb' 12 3) (rdOf w) (w.extractLsb' 0 7) (Row.eq_of_fits h (append_fields w))
  rw [and_ones7] at hf7 hop
  rw [and_ones3] at hf3
  rw [wordR, ← hf7, ← hf3, ← hop, append_fields]

theorem wordI_of_fits {mk : RegIdx → RegIdx → Instr}
    (h : (Row.i bases f7 sel mk).fits w = true) : wordI f7 sel (rs1Of w) (rdOf w) = w := by
  obtain ⟨hf7, hsel, -, hf3, -, hop⟩ := fixed_fields6 (w.extractLsb' 25 7) (rs2Of w) (rs1Of w)
    (w.extractLsb' 12 3) (rdOf w) (w.extractLsb' 0 7) (Row.eq_of_fits h (append_fields w))
  rw [and_ones7] at hf7 hop
  rw [and_ones5] at hsel
  rw [and_ones3] at hf3
  rw [wordI, ← hf7, ← hsel, ← hf3, ← hop, append_fields]

theorem wordKs1i_of_fits (h : Row.ks1i.fits w = true) : wordKs1i (rnumOf w) (rs1Of w) (rdOf w) = w := by
  obtain ⟨hf7, htag, -, -, hf3, -, hop⟩ := fixed_fields7 (w.extractLsb' 25 7) (w.extractLsb' 24 1) (rnumOf w) (rs1Of w)
    (w.extractLsb' 12 3) (rdOf w) (w.extractLsb' 0 7) (Row.eq_of_fits h (append_fields_ks1i w))
  rw [and_ones7] at hf7 hop
  rw [and_ones1] at htag
  rw [and_ones3] at hf3
  rw [wordKs1i, ← hf7, ← htag, ← hf3, ← hop, append_fields_ks1i]

end Fits

/-- Row by row, each through its format: the instruction a row makes of a word has that word as its encoding, no bit
being dropped. -/
theorem encode_make_of_fits {r : Row} (hr : r ∈ opcodeMap) : ∀ w : Word32, r.fits w = true → encode (r.make w) = w := by
  revert r
  simp only [opcodeMap, rowsBoth, rowsRv32, rowsRv64, List.forall_mem_append, List.forall_mem_cons, List.not_mem_nil,
    false_implies, implies_true, and_true]
  exact ⟨⟨⟨fun _ => wordRbs_of_fits, fun _ => wordRbs_of_fits, fun _ => wordI_of_fits, fun _ => wordI_of_fits,
        fun _ => wordI_of_fits, fun _ => wordI_of_fits, fun _ => wordI_of_fits, fun _ => wordI_of_fits⟩,
      fun _ => wordRbs_of_fits, fun _ => wordRbs_of_fits, fun _ => wordRbs_of_fits, fun _ => wordRbs_of_fits,
      fun _ => wordR_of_fits, fun _ => wordR_of_fits, fun _ => wordR_of_fits, fun _ => wordR_of_fits,
      fun _ => wordR_of_fits, fun _ => wordR_of_fits⟩,
    fun _ => wordKs1i_of_fits, fun _ => wordR_of_fits, fun _ => wordI_of_fits, fun _ => wordR_of_fits,
    fun _ => wordR_of_fits, fun _ => wordR_of_fits, fun _ => wordR_of_fits, fun _ => wordI_of_fits,
    fun _ => wordI_of_fits, fun _ => wordI_of_fits, fun _ => wordI_of_fits⟩

theorem HasRow.encode_eq {b : Base} {w : Word32} {i : Instr} (h : HasRow b w i) : encode i = w := by
  obtain ⟨r, hr, -, hfits, rfl⟩ := h
  exact encode_make_of_fits hr w hfits

/-- A row gives no pseudo-op (30_encoding.md R81). -/
theorem isCsrRead_make {r : Row} (hr : r ∈ opcodeMap) (w : Word32) : (r.make w).isCsrRead = false := by
  revert r
  simp [opcodeMap, rowsBoth, rowsRv32, rowsRv64, Row.rbs, Row.r, Row.i, Row.ks1i, Instr.isCsrRead]

theorem HasRow.isCsrRead {b : Base} {w : Word32} {i : Instr} (h : HasRow b w i) : i.isCsrRead = false := by
  obtain ⟨r, hr, -, -, rfl⟩ := h
  exact isCsrRead_make hr w

/-! ### All that the decoder can answer -/

/-- A CSR read that decodes is the word of one of the two pseudo-ops. -/
theorem decodeCsrRead_eq_insn {w : Word32} {i : Instr} (h : decodeCsrRead w = .insn i) :
    w.extractLsb' 0 7 = Config.opSystem ∧ encode i = w ∧ i.isCsrRead = true := by
  have hword (csr : CsrNum) (hop : w.extractLsb' 0 7 = Config.opSystem)
      (hmid : w.extractLsb' 12 8 = Config.csrReadMid) (hcsr : csrOf w = csr) : wordCsrRead csr (rdOf w) = w := by
    rw [wordCsrRead, ← hcsr, ← hmid, ← hop, append_fields_csrRead]
  unfold decodeCsrRead at h
  split_ifs at h with hop hmid hpoll hnoise
  · obtain rfl := Decoded.insn.inj h
    exact ⟨hop, hword _ hop hmid hpoll, rfl⟩
  · obtain rfl := Decoded.insn.inj h
    exact ⟨hop, hword _ hop hmid hnoise, rfl⟩

/-- A word that decodes is one of a row whose field requirement it meets, or a CSR read (30_encoding.md R75, R81). -/
theorem decode_eq_insn {b : Base} {w : Word32} {i : Instr} (h : decode b w = .insn i) :
    (HasRow b w i ∧ i.fieldsLegal = true) ∨ decodeCsrRead w = .insn i := by
  unfold decode at h
  split at h
  · rename_i r hfind
    split at h
    · rename_i hlegal
      obtain rfl := Decoded.insn.inj h
      have hfits := List.find?_some hfind
      rw [Bool.and_eq_true] at hfits
      exact .inl ⟨⟨r, List.mem_of_find?_eq_some hfind, hfits.1, hfits.2, rfl⟩, hlegal⟩
    · cases h
  · exact .inr h

theorem wellFormed_of_isCsrRead {i : Instr} (b : Base) (h : i.isCsrRead = true) : i.wellFormed b = true := by
  cases i with
  | pollentropy rd => rfl
  | getnoise rd => rfl
  | _ => cases h

/-- A word that decodes to an instruction without a CSR read has that instruction's row. -/
theorem HasRow.of_decode {b : Base} {w : Word32} {i : Instr} (h : decode b w = .insn i) (hcsr : i.isCsrRead = false) :
    HasRow b w i ∧ i.fieldsLegal = true := by
  obtain hrow | hread := decode_eq_insn h
  · exact hrow
  · rw [(decodeCsrRead_eq_insn hread).2.2] at hcsr
    cases hcsr

theorem encode_of_decode {b : Base} {w : Word32} {i : Instr} (h : decode b w = .insn i) : encode i = w := by
  obtain ⟨hrow, -⟩ | hread := decode_eq_insn h
  · exact hrow.encode_eq
  · exact (decodeCsrRead_eq_insn hread).2.1

theorem wellFormed_of_decode {b : Base} {w : Word32} {i : Instr} (h : decode b w = .insn i) :
    i.wellFormed b = true := by
  obtain ⟨hrow, hlegal⟩ | hread := decode_eq_insn h
  · rw [Instr.wellFormed, hrow.onBase, hlegal, Bool.and_self]
  · exact wellFormed_of_isCsrRead b (decodeCsrRead_eq_insn hread).2.2

end Sys2Proof

/-! ### The statements -/

namespace Sys2Proof.Proofs

open Sys2Proof Sys2Proof.Machine

/-- Settles O1. An instruction of the opcode map decodes by its own row, the only one that fits its word; a pseudo-op's
major opcode fits no row, and its CSR number tells it from the other. -/
theorem decodeOfEncode : Obligations.DecodeOfEncode := by
  unfold Obligations.DecodeOfEncode
  exact fun b i hwf => decode_encode hwf

/-- Settles O2. The word is the concatenation of its fields, and those that the row or the CSR read does not fix are the
operands it gives to the instruction. -/
theorem decodedWordIsEncodingOfLegalInstr : Obligations.DecodedWordIsEncodingOfLegalInstr := by
  unfold Obligations.DecodedWordIsEncodingOfLegalInstr
  exact fun b w i h => ⟨encode_of_decode h, wellFormed_of_decode h⟩

end Sys2Proof.Proofs

/-! # Proofs: the opcode map as a partition of the words (30_encoding.md R62, R69, R74, R75, R77) -/

namespace Sys2Proof

/-! ### At most one row -/

theorem length_filter_le_one {α : Type} {p : α → Bool} {l : List α}
    (h : l.Pairwise fun x y => ¬(p x = true ∧ p y = true)) : (l.filter p).length ≤ 1 := by
  induction l with
  | nil => exact Nat.zero_le 1
  | cons x rest ih =>
    obtain ⟨hx, hrest⟩ := List.pairwise_cons.mp h
    cases hp : p x with
    | false => simpa [hp] using ih hrest
    | true =>
      have hnone : rest.filter p = [] := List.filter_eq_nil_iff.mpr fun y hy hpy => hx y hy ⟨hp, hpy⟩
      simp [hp, hnone]

/-! ### The block of the extension (R62) and the bit of the block ciphers (R69) -/

/-- The bits of a row that R62 and R69 speak of: all fixed, the major opcode `OP` or `OP-IMM`, func3 `000`, bit 28
set. -/
def Row.inBlock (r : Row) : Bool :=
  (r.patt.extractLsb' 0 7 == 0b0110011#7 || r.patt.extractLsb' 0 7 == 0b0010011#7) &&
    (r.mask.extractLsb' 12 3 == 0b111#3 && r.patt.extractLsb' 12 3 == 0b000#3) &&
    (r.mask.getLsbD 28 && r.patt.getLsbD 28) && r.mask.getLsbD 29

theorem opcodeMap_inBlock : opcodeMap.all Row.inBlock = true := by decide

/-- A bit that the row fixes. -/
theorem Row.getLsbD_of_fits {r : Row} {w : Word32} (h : r.fits w = true) {k : Nat} (hk : r.mask.getLsbD k = true) :
    w.getLsbD k = r.patt.getLsbD k := by
  rw [← beq_iff_eq.mp h, BitVec.getLsbD_and, hk, Bool.and_true]

/-- Bit 29 of a row's pattern says whether the row's instructions are of a block cipher. -/
theorem isBlockCipher_make {r : Row} (hr : r ∈ opcodeMap) (w : Word32) :
    Machine.isBlockCipher (r.make w) = r.patt.getLsbD 29 := by
  revert r
  simp only [opcodeMap, rowsBoth, rowsRv32, rowsRv64, List.forall_mem_append, List.forall_mem_cons, List.not_mem_nil,
    false_implies, implies_true, and_true]
  and_intros <;> rfl

theorem HasRow.block {b : Base} {w : Word32} {i : Instr} (h : HasRow b w i) :
    ((w.extractLsb' 0 7 = 0b0110011#7 ∨ w.extractLsb' 0 7 = 0b0010011#7) ∧ w.extractLsb' 12 3 = 0b000#3 ∧
      w.getLsbD 28 = true) ∧ w.getLsbD 29 = Machine.isBlockCipher i := by
  obtain ⟨r, hr, -, hfits, rfl⟩ := h
  have hrow := List.all_eq_true.mp opcodeMap_inBlock r hr
  simp only [Row.inBlock, Bool.and_eq_true, Bool.or_eq_true, beq_iff_eq] at hrow
  obtain ⟨⟨⟨hop, hmask3, hpatt3⟩, hmask28, hpatt28⟩, hmask29⟩ := hrow
  have hf3 := Row.extractLsb'_of_fits hfits 12 3
  rw [hmask3, and_ones3, hpatt3] at hf3
  rw [(opcode_of_fits hr hfits).1, isBlockCipher_make hr]
  exact ⟨⟨hop, hf3, (Row.getLsbD_of_fits hfits hmask28).trans hpatt28⟩, Row.getLsbD_of_fits hfits hmask29⟩

/-! ### Words that no row of a base fits (R77)

A reserved encoding is a row that the map does not have: if it is apart from every row of the map, its words fit none
of them. -/

theorem decodeCsrRead_of_opcode_ne {w : Word32} (h : w.extractLsb' 0 7 ≠ Config.opSystem) :
    decodeCsrRead w = .notScalarCrypto := if_neg h

/-- The reserved row is apart from every row of the map, and is not in the major opcode of the CSR reads. -/
def Row.reserved (q : Row) : Bool :=
  opcodeMap.all q.apart &&
    (q.mask.extractLsb' 0 7 == 0b1111111#7 && q.patt.extractLsb' 0 7 != Config.opSystem)

theorem decode_of_reserved {b : Base} {q : Row} (hq : q.reserved = true) (hb : q.bases.contains b = true) {w : Word32}
    (hw : q.fits w = true) : decode b w = .notScalarCrypto := by
  simp only [Row.reserved, Bool.and_eq_true, beq_iff_eq, bne_iff_ne] at hq
  obtain ⟨hapart, hmask, hpatt⟩ := hq
  have hop := Row.extractLsb'_of_fits hw 0 7
  rw [hmask, and_ones7] at hop
  rw [decode_of_no_fit fun r hr hbr => Bool.eq_false_iff.mpr fun hfits =>
    Row.not_both_fit (List.all_eq_true.mp hapart r hr) b w (by rw [hb, hw]; rfl) (by rw [hbr, hfits]; rfl)]
  exact decodeCsrRead_of_opcode_ne (hop ▸ hpatt)

/-- A reserved func7 of the two-source format. What the missing row would make of its words is of no account. -/
theorem decode_wordR_of_reserved {b : Base} {f7 : BitVec 7} (hq : (Row.r [b] f7 .sha512sum0r).reserved = true)
    (rs2 rs1 rd : RegIdx) : decode b (wordR f7 rs2 rs1 rd) = .notScalarCrypto :=
  decode_of_reserved hq (by cases b <;> rfl) (Row.r_fits _ _ _ _ _ _)

/-- A reserved selector of the one-source format. -/
theorem decode_wordI_of_reserved {b : Base} {f7 : BitVec 7} {sel : BitVec 5}
    (hq : (Row.i [b] f7 sel .sha512sum0).reserved = true) (rs1 rd : RegIdx) :
    decode b (wordI f7 sel rs1 rd) = .notScalarCrypto :=
  decode_of_reserved hq (by cases b <;> rfl) (Row.i_fits _ _ _ _ _ _)

/-! ### One word on the two bases (46_aes64.md) -/

/-- A word of an accumulating RV32 AES instruction that is also the word of a two-source RV64 AES instruction. -/
theorem decode_on_both_bases {i32 i64 : Instr} {rs1 : RegIdx} (hwords : encode i32 = encode i64)
    (hcsr32 : i32.isCsrRead = false) (hon32 : i32.onBase .rv32 = true) (htied : i32.fieldsLegal = (rs1 == i32.rd))
    (hwf64 : i64.wellFormed .rv64 = true) :
    decode .rv64 (encode i64) = .insn i64 ∧
      decode .rv32 (encode i64) = if rs1 = i32.rd then .insn i32 else .illegalOpcode := by
  have hrow : HasRow .rv32 (encode i32) i32 := hasRow_encode (rowMatch i32) hcsr32 hon32
  exact ⟨decode_encode hwf64, hwords ▸ hrow.decode_eq_of_tied htied⟩

/-- The func7 values that an accumulating AES instruction with other byte selects would have on RV64 are reserved. -/
theorem reserved_aes_rv64 : ∀ (hi : BitVec 2), ∀ f5 ∈ [0b11011#5, 0b11001#5, 0b11111#5, 0b11101#5], hi ≠ 0b00#2 →
    ¬(hi = 0b01#2 ∧ f5 = 0b11001#5) → (Row.r [.rv64] (hi ++ f5) .sha512sum0r).reserved = true := by decide

/-- The func7 values of the RV32 SHA-512 instructions are reserved on RV64. -/
theorem reserved_sha512_rv64 :
    ∀ f7 ∈ [0b0101000#7, 0b0101001#7, 0b0101010#7, 0b0101110#7, 0b0101011#7, 0b0101111#7],
      (Row.r [.rv64] f7 .sha512sum0r).reserved = true := by decide

/-- The selectors of the RV64 SHA-512 instructions are reserved on RV32. -/
theorem reserved_sha512_rv32 : ∀ sel ∈ [0b00100#5, 0b00101#5, 0b00110#5, 0b00111#5],
    (Row.i [.rv32] 0b0001000#7 sel .sha512sum0).reserved = true := by decide

/-- On RV32 the func7 of `aes64ks1i` and `aes64im` is reserved with every selector. -/
theorem reserved_aesImm_rv32 : ∀ sel : BitVec 5, (Row.i [.rv32] 0b0011000#7 sel .sha512sum0).reserved = true := by
  decide

end Sys2Proof

/-! ### The statements -/

namespace Sys2Proof.Proofs

open Sys2Proof Sys2Proof.Machine

/-- Settles O3. Two rows of one base are apart: they differ in a bit that both fix. -/
theorem atMostOneRowFits : Obligations.AtMostOneRowFits := by
  unfold Obligations.AtMostOneRowFits
  exact fun b w => length_filter_le_one (opcodeMap_apart.imp fun h => fun ⟨hr, hq⟩ => Row.not_both_fit h b w hr hq)

/-- Settles O4. The bits of the block are fixed by every row, and the major opcode of a CSR read is neither of the
block's two. -/
theorem instructionsLieInTheBlock : Obligations.InstructionsLieInTheBlock := by
  unfold Obligations.InstructionsLieInTheBlock
  intro b w i h
  refine ⟨fun hcsr => (HasRow.of_decode h hcsr).1.block.1, fun ⟨hop, _, _⟩ => ?_⟩
  obtain ⟨hrow, -⟩ | hread := decode_eq_insn h
  · exact hrow.isCsrRead
  · rw [(decodeCsrRead_eq_insn hread).1] at hop
    exact absurd hop (by decide)

/-- Settles O5. Bits 28 and 29 are fixed by every row, and bit 29 of the row is the class of its instructions. -/
theorem bit29TellsBlockCipherFromHash : Obligations.Bit29TellsBlockCipherFromHash := by
  unfold Obligations.Bit29TellsBlockCipherFromHash
  intro b w i h hcsr
  obtain ⟨⟨-, -, hbit28⟩, hbit29⟩ := (HasRow.of_decode h hcsr).1.block
  exact ⟨hbit28, hbit29⟩

/-- Settles O6. The same word is the encoding of an RV32 and of an RV64 instruction; the other byte selects give func7
values that RV64 reserves. -/
theorem aesWordsOnBothBases : Obligations.AesWordsOnBothBases := by
  unfold Obligations.AesWordsOnBothBases
  intro rd rs1 rs2
  refine ⟨?esm, ?es, ?dsm, ?ds, ?ks2, fun hi f5 hf5 hhi hks2 => ?reserved⟩
  case esm =>
    exact decode_on_both_bases (i32 := .aes32esmi rd rs1 rs2 0#2) (i64 := .aes64esm rd rs1 rs2) rfl rfl rfl rfl rfl
  case es =>
    exact decode_on_both_bases (i32 := .aes32esi rd rs1 rs2 0#2) (i64 := .aes64es rd rs1 rs2) rfl rfl rfl rfl rfl
  case dsm =>
    exact decode_on_both_bases (i32 := .aes32dsmi rd rs1 rs2 0#2) (i64 := .aes64dsm rd rs1 rs2) rfl rfl rfl rfl rfl
  case ds =>
    exact decode_on_both_bases (i32 := .aes32dsi rd rs1 rs2 0#2) (i64 := .aes64ds rd rs1 rs2) rfl rfl rfl rfl rfl
  case ks2 =>
    exact decode_on_both_bases (i32 := .aes32esi rd rs1 rs2 1#2) (i64 := .aes64ks2 rd rs1 rs2) rfl rfl rfl rfl rfl
  case reserved => exact decode_wordR_of_reserved (reserved_aes_rv64 hi f5 hf5 hhi hks2) rs2 rs1 rd

/-- Settles O7. The words have the formats of their base and a func7 or selector that the other base reserves. -/
theorem otherBaseEncodingsAreNotInstructions : Obligations.OtherBaseEncodingsAreNotInstructions := by
  unfold Obligations.OtherBaseEncodingsAreNotInstructions
  exact fun rd rs1 rs2 => ⟨fun f7 hf7 => decode_wordR_of_reserved (reserved_sha512_rv64 f7 hf7) rs2 rs1 rd,
    fun sel hsel => decode_wordI_of_reserved (reserved_sha512_rv32 sel hsel) rs1 rd,
    fun sel => decode_wordI_of_reserved (reserved_aesImm_rv32 sel) rs1 rd⟩

/-- Settles O9. Each word is decoded by evaluation. -/
theorem wordsFromTheSpecDecode : Obligations.WordsFromTheSpecDecode := by
  unfold Obligations.WordsFromTheSpecDecode
  refine ⟨?_, ?_, ?_, ?_, ?_, ?_, ?_, ?_, ?_⟩ <;> decide

end Sys2Proof.Proofs

/-! # Proofs: the encoding points of the two bases (30_encoding.md R78) -/

namespace Sys2Proof

/-- The field values that count as encoding points: the legal ones, and all sixteen values of `rnum`, as the source
counts them. -/
def Instr.counted : Instr → Bool
  | .aes64ks1i _ _ _ => true
  | i => i.fieldsLegal

theorem Instr.counted_of_fieldsLegal {i : Instr} (h : i.fieldsLegal = true) : i.counted = true := by
  cases i with
  | aes64ks1i rd rs1 rnum => rfl
  | _ => exact h

theorem Instr.eq_aes64ks1i_of_counted {i : Instr} (hcounted : i.counted = true) (hlegal : i.fieldsLegal = false) :
    ∃ (rd rs1 : RegIdx) (rnum : BitVec 4), i = .aes64ks1i rd rs1 rnum := by
  cases i with
  | aes64ks1i rd rs1 rnum => exact ⟨rd, rs1, rnum, rfl⟩
  | _ => exact absurd (hlegal.symm.trans hcounted) Bool.false_ne_true

/-- The encoding points of a row on a base. -/
def Row.points (b : Base) (r : Row) : Set Word32 :=
  {w | r.bases.contains b = true ∧ r.fits w = true ∧ (r.make w).counted = true}

/-- How many they are, by the format, which the mask tells: two sources and a byte select with `rs1 = rd`; two sources;
one source; one source and `rnum`. -/
def Row.size (b : Base) (r : Row) : Nat :=
  if r.bases.contains b then
    if r.mask = 0x3e00707f#32 then 4 * 32 * 32
    else if r.mask = 0xfe00707f#32 then 32 * 32 * 32
    else if r.mask = 0xfff0707f#32 then 32 * 32
    else 16 * 32 * 32
  else 0

/-! ### The points of one row -/

section OneRow

variable {bases : List Base} {f5 sel : BitVec 5} {f7 : BitVec 7} {b : Base}

theorem natCard_bitVec (n : Nat) : Nat.card (BitVec n) = 2 ^ n :=
  (Nat.card_congr BitVec.equivFin.toEquiv).trans (Nat.card_fin _)

/-- Points that are the words of free operands, each operand having its field, are as many as the operands. -/
theorem ncard_points_of_operands {α : Type} {r : Row} {word : α → Word32} (operands : Word32 → α)
    (hfields : ∀ x, operands (word x) = x)
    (hpoints : ∀ w, r.fits w = true ∧ (r.make w).counted = true ↔ ∃ x, word x = w) :
    (r.points b).ncard = if r.bases.contains b then Nat.card α else 0 := by
  cases hb : r.bases.contains b with
  | false =>
    have hempty : r.points b = ∅ := Set.eq_empty_of_forall_notMem fun w ⟨h, _⟩ => Bool.false_ne_true (hb.symm.trans h)
    rw [hempty, Set.ncard_empty]
    rfl
  | true =>
    have hrange : r.points b = Set.range word := Set.ext fun w => (and_iff_right hb).trans (hpoints w)
    rw [hrange, Set.ncard_range_of_injective (Function.LeftInverse.injective hfields)]
    rfl

theorem ncard_points_rbs {mk : RegIdx → RegIdx → RegIdx → BitVec 2 → Instr}
    (hmk : ∀ rd rs1 rs2 bs, (mk rd rs1 rs2 bs).counted = (rs1 == rd)) :
    ((Row.rbs bases f5 mk).points b).ncard = (Row.rbs bases f5 mk).size b := by
  refine (ncard_points_of_operands (word := fun x : BitVec 2 × RegIdx × RegIdx => wordRbs x.1 f5 x.2.1 x.2.2 x.2.2)
    (fun w => (bsOf w, rs2Of w, rdOf w)) (by simp) fun w => ⟨?_, ?_⟩).trans ?_
  · rintro ⟨hfits, hcounted⟩
    have htied : rs1Of w = rdOf w := beq_iff_eq.mp ((hmk ..).symm.trans hcounted)
    have hword := wordRbs_of_fits hfits
    rw [htied] at hword
    exact ⟨(bsOf w, rs2Of w, rdOf w), hword⟩
  · rintro ⟨⟨bs, rs2, rd⟩, rfl⟩
    exact ⟨Row.rbs_fits .., by simp [Row.rbs, hmk]⟩
  · rw [Nat.card_prod, Nat.card_prod, natCard_bitVec, natCard_bitVec]
    rfl

theorem ncard_points_r {mk : RegIdx → RegIdx → RegIdx → Instr} (hmk : ∀ rd rs1 rs2, (mk rd rs1 rs2).counted = true) :
    ((Row.r bases f7 mk).points b).ncard = (Row.r bases f7 mk).size b := by
  refine (ncard_points_of_operands (word := fun x : RegIdx × RegIdx × RegIdx => wordR f7 x.1 x.2.1 x.2.2)
    (fun w => (rs2Of w, rs1Of w, rdOf w)) (by simp) fun w => ⟨?_, ?_⟩).trans ?_
  · rintro ⟨hfits, -⟩
    exact ⟨(rs2Of w, rs1Of w, rdOf w), wordR_of_fits hfits⟩
  · rintro ⟨⟨rs2, rs1, rd⟩, rfl⟩
    exact ⟨Row.r_fits .., hmk ..⟩
  · rw [Nat.card_prod, Nat.card_prod, natCard_bitVec]
    rfl

theorem ncard_points_i {mk : RegIdx → RegIdx → Instr} (hmk : ∀ rd rs1, (mk rd rs1).counted = true) :
    ((Row.i bases f7 sel mk).points b).ncard = (Row.i bases f7 sel mk).size b := by
  refine (ncard_points_of_operands (word := fun x : RegIdx × RegIdx => wordI f7 sel x.1 x.2)
    (fun w => (rs1Of w, rdOf w)) (by simp) fun w => ⟨?_, ?_⟩).trans ?_
  · rintro ⟨hfits, -⟩
    exact ⟨(rs1Of w, rdOf w), wordI_of_fits hfits⟩
  · rintro ⟨⟨rs1, rd⟩, rfl⟩
    exact ⟨Row.i_fits .., hmk ..⟩
  · rw [Nat.card_prod, natCard_bitVec]
    rfl

theorem ncard_points_ks1i : (Row.ks1i.points b).ncard = Row.ks1i.size b := by
  refine (ncard_points_of_operands (word := fun x : BitVec 4 × RegIdx × RegIdx => wordKs1i x.1 x.2.1 x.2.2)
    (fun w => (rnumOf w, rs1Of w, rdOf w)) (by simp) fun w => ⟨?_, ?_⟩).trans ?_
  · rintro ⟨hfits, -⟩
    exact ⟨(rnumOf w, rs1Of w, rdOf w), wordKs1i_of_fits hfits⟩
  · rintro ⟨⟨rnum, rs1, rd⟩, rfl⟩
    exact ⟨Row.ks1i_fits .., rfl⟩
  · rw [Nat.card_prod, Nat.card_prod, natCard_bitVec, natCard_bitVec]
    rfl

end OneRow

/-! ### The points of all rows -/

/-- Row by row, each through its format. -/
theorem ncard_points_of_mem {r : Row} (hr : r ∈ opcodeMap) : ∀ b : Base, (r.points b).ncard = r.size b := by
  revert r
  simp only [opcodeMap, rowsBoth, rowsRv32, rowsRv64, List.forall_mem_append, List.forall_mem_cons, List.not_mem_nil,
    false_implies, implies_true, and_true]
  exact ⟨⟨⟨fun _ => ncard_points_rbs fun _ _ _ _ => rfl, fun _ => ncard_points_rbs fun _ _ _ _ => rfl,
        fun _ => ncard_points_i fun _ _ => rfl, fun _ => ncard_points_i fun _ _ => rfl,
        fun _ => ncard_points_i fun _ _ => rfl, fun _ => ncard_points_i fun _ _ => rfl,
        fun _ => ncard_points_i fun _ _ => rfl, fun _ => ncard_points_i fun _ _ => rfl⟩,
      fun _ => ncard_points_rbs fun _ _ _ _ => rfl, fun _ => ncard_points_rbs fun _ _ _ _ => rfl,
      fun _ => ncard_points_rbs fun _ _ _ _ => rfl, fun _ => ncard_points_rbs fun _ _ _ _ => rfl,
      fun _ => ncard_points_r fun _ _ _ => rfl, fun _ => ncard_points_r fun _ _ _ => rfl,
      fun _ => ncard_points_r fun _ _ _ => rfl, fun _ => ncard_points_r fun _ _ _ => rfl,
      fun _ => ncard_points_r fun _ _ _ => rfl, fun _ => ncard_points_r fun _ _ _ => rfl⟩,
    fun _ => ncard_points_ks1i, fun _ => ncard_points_r fun _ _ _ => rfl, fun _ => ncard_points_i fun _ _ => rfl,
    fun _ => ncard_points_r fun _ _ _ => rfl, fun _ => ncard_points_r fun _ _ _ => rfl,
    fun _ => ncard_points_r fun _ _ _ => rfl, fun _ => ncard_points_r fun _ _ _ => rfl,
    fun _ => ncard_points_i fun _ _ => rfl, fun _ => ncard_points_i fun _ _ => rfl,
    fun _ => ncard_points_i fun _ _ => rfl, fun _ => ncard_points_i fun _ _ => rfl⟩

/-- Rows that are apart have no point in common: together they have as many as the sum of each row's. -/
theorem ncard_union_points (b : Base) {l : List Row} (hl : l.Pairwise fun r q => r.apart q = true) :
    {w | ∃ r ∈ l, w ∈ r.points b}.ncard = (l.map fun r => (r.points b).ncard).sum := by
  induction l with
  | nil => simp
  | cons r rest ih =>
    obtain ⟨hr, hrest⟩ := List.pairwise_cons.mp hl
    have hsplit : {w | ∃ q ∈ r :: rest, w ∈ q.points b} = r.points b ∪ {w | ∃ q ∈ rest, w ∈ q.points b} := by
      ext w
      simp
    have hdisjoint : Disjoint (r.points b) {w | ∃ q ∈ rest, w ∈ q.points b} := by
      refine Set.disjoint_left.mpr fun w ⟨hb, hfits, _⟩ ⟨q, hq, hbq, hfitsq, _⟩ => ?_
      exact Row.not_both_fit (hr q hq) b w (by rw [hb, hfits]; rfl) (by rw [hbq, hfitsq]; rfl)
    rw [hsplit, Set.ncard_union_eq hdisjoint, ih hrest, List.map_cons, List.sum_cons]

theorem ncard_points (b : Base) :
    {w | ∃ r ∈ opcodeMap, w ∈ r.points b}.ncard = (opcodeMap.map (Row.size b)).sum := by
  rw [ncard_union_points b opcodeMap_apart, List.map_congr_left fun r hr => ncard_points_of_mem hr b]

/-- The points are the words that decode, and on RV64 the words of `aes64ks1i` with the `rnum` that the decoder
rejects. -/
theorem exists_mem_points_iff (b : Base) (w : Word32) : (∃ r ∈ opcodeMap, w ∈ r.points b) ↔
    (b = .rv64 ∧ Row.ks1i.fits w = true) ∨ ∃ i : Instr, decode b w = .insn i ∧ i.isCsrRead = false := by
  constructor
  · rintro ⟨r, hr, hb, hfits, hcounted⟩
    have hrow : HasRow b w (r.make w) := ⟨r, hr, hb, hfits, rfl⟩
    cases hlegal : (r.make w).fieldsLegal with
    | true => exact .inr ⟨_, by rw [hrow.decode_eq, if_pos hlegal], hrow.isCsrRead⟩
    | false =>
      obtain ⟨rd, rs1, rnum, hmake⟩ := Instr.eq_aes64ks1i_of_counted hcounted hlegal
      have hword : wordKs1i rnum rs1 rd = w := by
        rw [← encode_make_of_fits hr w hfits, hmake]
        rfl
      have hon := hrow.onBase
      rw [hmake] at hon
      exact .inl ⟨beq_iff_eq.mp hon, hword ▸ Row.ks1i_fits rnum rs1 rd⟩
  · rintro (⟨rfl, hfits⟩ | ⟨i, hd, hcsr⟩)
    · exact ⟨.ks1i, by simp [opcodeMap, rowsRv64], rfl, hfits, rfl⟩
    · obtain ⟨⟨r, hr, hb, hfits, rfl⟩, hlegal⟩ := HasRow.of_decode hd hcsr
      exact ⟨r, hr, hb, hfits, Instr.counted_of_fieldsLegal hlegal⟩

end Sys2Proof

/-! ### The statement -/

namespace Sys2Proof.Proofs

open Sys2Proof Sys2Proof.Machine

/-- Settles O8. The words that count are the disjoint union of the rows' points; a row has as many as its free operands,
and the totals are the sums over the opcode map. -/
theorem encodingPointTotals : Obligations.EncodingPointTotals := by
  unfold Obligations.EncodingPointTotals
  constructor
  · calc Nat.card { w : Word32 // ∃ i : Instr, decode .rv32 w = .insn i ∧ i.isCsrRead = false }
      _ = {w | ∃ r ∈ opcodeMap, w ∈ r.points .rv32}.ncard :=
        Nat.card_congr (Equiv.subtypeEquivRight fun w => by simp [exists_mem_points_iff])
      _ = (opcodeMap.map (Row.size .rv32)).sum := ncard_points .rv32
      _ = 227328 := by decide
  · calc Nat.card { w : Word32 // Row.ks1i.fits w = true ∨ ∃ i : Instr, decode .rv64 w = .insn i ∧ i.isCsrRead = false }
      _ = {w | ∃ r ∈ opcodeMap, w ∈ r.points .rv64}.ncard :=
        Nat.card_congr (Equiv.subtypeEquivRight fun w => by simp [exists_mem_points_iff])
      _ = (opcodeMap.map (Row.size .rv64)).sum := ncard_points .rv64
      _ = 199680 := by decide

end Sys2Proof.Proofs

/-! # Proofs: fetch, step and run (20_memory.md R42, R43; 10_state.md R20 to R29; 60_exceptions.md R204, R205;
70_reset_and_hazards.md R230 to R232) -/

namespace Sys2Proof.Machine

/-! ### Fetch -/

theorem memWord_eq_some_iff {m : List Host.Cell} {a : Nat} {w : Word32} : memWord m a = some w ↔
    ∃ b0 b1 b2 b3 : Byte, memByte m a = some b0 ∧ memByte m (a + 1) = some b1 ∧ memByte m (a + 2) = some b2 ∧
      memByte m (a + 3) = some b3 ∧ wordOfBytes b0 b1 b2 b3 = w := by
  unfold memWord
  constructor
  · intro h
    split at h
    · rename_i b0 b1 b2 b3 h0 h1 h2 h3
      exact ⟨b0, b1, b2, b3, h0, h1, h2, h3, Option.some.inj h⟩
    · cases h
  · rintro ⟨b0, b1, b2, b3, h0, h1, h2, h3, rfl⟩
    simp only [h0, h1, h2, h3]

/-- A word with a byte missing is not there. -/
theorem memWord_eq_none {m : List Host.Cell} {a k : Nat} (hk : k < 4) (hbyte : memByte m (a + k) = none) :
    memWord m a = none := by
  refine Option.eq_none_iff_forall_ne_some.mpr fun w hword => ?_
  obtain ⟨b0, b1, b2, b3, h0, h1, h2, h3, -⟩ := memWord_eq_some_iff.mp hword
  match k with
  | 0 => exact absurd (h0.symm.trans hbyte) (Option.some_ne_none b0)
  | 1 => exact absurd (h1.symm.trans hbyte) (Option.some_ne_none b1)
  | 2 => exact absurd (h2.symm.trans hbyte) (Option.some_ne_none b2)
  | 3 => exact absurd (h3.symm.trans hbyte) (Option.some_ne_none b3)
  | _ + 4 => omega

section Fetch

variable {s : State}

theorem fetch_eq_ok {w : Word32} (haligned : s.readPc.toNat % 4 = 0) (hword : memWord s.mem s.readPc.toNat = some w) :
    s.fetch = .ok w := by
  simp only [State.fetch, if_pos haligned, hword]

theorem fetch_eq_unmapped (haligned : s.readPc.toNat % 4 = 0) (hword : memWord s.mem s.readPc.toNat = none) :
    s.fetch = .error .unmappedFetch := by
  simp only [State.fetch, if_pos haligned, hword]

theorem fetch_eq_misaligned (hmisaligned : s.readPc.toNat % 4 ≠ 0) : s.fetch = .error .misalignedFetch := by
  simp only [State.fetch, if_neg hmisaligned]

end Fetch

/-! ### All that a step can do -/

theorem step_eq_fault {s : State} {f : Fault} (hfault : s.fault = none) (hfetch : s.fetch = .error f) :
    step s = .fault f := by
  simp only [step, hfault, hfetch]

/-- The word fetched is an instruction, which runs, or it is none and takes the exception. -/
def StepsBy (s : State) (w : Word32) (t : State) : Prop :=
  (∃ i : Instr, decode s.base w = .insn i ∧ exec i s = .next t) ∨
    ((∀ i : Instr, decode s.base w ≠ .insn i) ∧ t = s.raiseIllegal w)

/-- The order of R205: an ended run, a fetch that cannot be performed, a word fetched. -/
theorem step_cases (s : State) :
    ((∃ f, s.fault = some f) ∧ step s = .fault .runEnded) ∨
    (∃ f, s.fault = none ∧ s.fetch = .error f ∧ step s = .fault f) ∨
    (∃ w t, s.fault = none ∧ s.fetch = .ok w ∧ StepsBy s w t ∧ step s = .next t) := by
  cases hfault : s.fault with
  | some f => exact .inl ⟨⟨f, rfl⟩, step_eq_runEnded hfault⟩
  | none =>
    refine .inr ?_
    cases hfetch : s.fetch with
    | error f => exact .inl ⟨f, rfl, rfl, step_eq_fault hfault hfetch⟩
    | ok w =>
      refine .inr ?_
      by_cases hd : ∃ i : Instr, decode s.base w = .insn i
      · obtain ⟨i, hd⟩ := hd
        obtain ⟨t, hexec⟩ := exec_next i s
        exact ⟨w, t, rfl, rfl, .inl ⟨i, hd, hexec⟩, (step_eq_exec hfault hfetch hd).trans hexec⟩
      · have hd' : ∀ i : Instr, decode s.base w ≠ .insn i := not_exists.mp hd
        exact ⟨w, _, rfl, rfl, .inr ⟨hd', rfl⟩, step_eq_raiseIllegal hfault hfetch hd'⟩

theorem step_next {s t : State} (h : step s = .next t) :
    s.fault = none ∧ ∃ w, s.fetch = .ok w ∧ StepsBy s w t := by
  obtain ⟨-, hstep⟩ | ⟨f, -, -, hstep⟩ | ⟨w, u, hfault, hfetch, hsteps, hstep⟩ := step_cases s
  · cases h.symm.trans hstep
  · cases h.symm.trans hstep
  · cases h.symm.trans hstep
    exact ⟨hfault, w, hfetch, hsteps⟩

/-! ### What an instruction that answers a next state leaves -/

theorem Retired.of_afterDraw {s t : State} {rd : RegIdx} {v : Word64} (h : Retired s.afterDraw t rd v) :
    Retired s t rd v := by
  obtain ⟨dest, others, pc, base, fault, memory⟩ := h
  exact ⟨dest, others, pc, base, fault, memory⟩

/-- A legal instruction has completed, with a draw only for a pseudo-op. -/
theorem retired_of_exec {i : Instr} {s t : State} (hwf : i.wellFormed s.base = true) (h : exec i s = .next t) :
    (∃ v : Word64, Retired s t i.rd v) ∧ t.draws = s.draws + (if i.isCsrRead then 1 else 0) := by
  obtain ⟨-, v, rfl⟩ | ⟨hwf', -⟩ := exec_cases h
  · cases i.isCsrRead with
    | false => exact ⟨⟨_, s.retire_spec i.rd v⟩, s.retire_draws _ _⟩
    | true => exact ⟨⟨_, (s.afterDraw.retire_spec i.rd v).of_afterDraw⟩, s.afterDraw.retire_draws _ _⟩
  · cases hwf.symm.trans hwf'

theorem exec_base_mem {i : Instr} {s t : State} (h : exec i s = .next t) : t.base = s.base ∧ t.mem = s.mem := by
  obtain ⟨-, v, rfl⟩ | ⟨-, rfl⟩ := exec_cases h
  · cases i.isCsrRead with
    | false => exact ⟨s.retire_base _ _, s.retire_mem _ _⟩
    | true => exact ⟨s.afterDraw.retire_base _ _, s.afterDraw.retire_mem _ _⟩
  · exact ⟨rfl, rfl⟩

/-- Legal or not, an instruction changes no register but its destination, and no draw is made but by a pseudo-op. -/
theorem exec_frame {i : Instr} {s t : State} (h : exec i s = .next t) :
    (∀ r : RegIdx, r ≠ i.rd → t.readX r = s.readX r) ∧ (i.isCsrRead = false → t.draws = s.draws) := by
  cases hwf : i.wellFormed s.base with
  | true =>
    obtain ⟨⟨v, hret⟩, hdraws⟩ := retired_of_exec hwf h
    exact ⟨hret.others, fun hcsr => by rw [hdraws, hcsr]; rfl⟩
  | false =>
    obtain ⟨hwf', -⟩ | ⟨-, rfl⟩ := exec_cases h
    · cases hwf.symm.trans hwf'
    · exact ⟨fun _ _ => rfl, fun _ => rfl⟩

theorem step_base_mem {s t : State} (h : step s = .next t) : t.base = s.base ∧ t.mem = s.mem := by
  obtain ⟨-, w, -, ⟨i, -, hexec⟩ | ⟨-, rfl⟩⟩ := step_next h
  · exact exec_base_mem hexec
  · exact ⟨rfl, rfl⟩

/-! ### The invariant -/

theorem four_dvd_two_pow_xlen (b : Base) : 4 ∣ 2 ^ b.xlen := by
  cases b <;> decide

theorem cellsFit_writeX {s : State} (h : ∀ v ∈ s.x.toList, fitXlen s.base v = v) (rd : RegIdx) (v : Word64) :
    ∀ c ∈ (s.writeX rd v).x.toList, fitXlen s.base c = c := by
  unfold State.writeX
  split
  · exact h
  · intro c hc
    rw [Vector.toList_set] at hc
    obtain hold | rfl := List.mem_or_eq_of_mem_set hc
    · exact h c hold
    · exact fitXlen_fitXlen _ _

theorem State.Sound.afterDraw {s : State} (h : s.Sound) : s.afterDraw.Sound := by
  obtain ⟨memory, space, aligned, pcFits, cellsFit, record⟩ := h
  exact ⟨memory, space, aligned, pcFits, cellsFit, record⟩

theorem State.Sound.retire {s : State} (h : s.Sound) (hfault : s.fault = none) (rd : RegIdx) (v : Word64) :
    (s.retire rd v).Sound where
  memory := by rw [s.retire_mem]; exact h.memory
  space := by rw [s.retire_mem, s.retire_base]; exact h.space
  aligned := by
    have hpc := (s.retire_spec rd v).pc
    have haligned := h.aligned
    rw [hpc, Nat.mod_mod_of_dvd _ (four_dvd_two_pow_xlen s.base)]
    omega
  pcFits := by rw [s.retire_base, s.retire_pc, State.nextPc, fitXlen_fitXlen]
  cellsFit := by rw [s.retire_base]; exact cellsFit_writeX h.cellsFit rd v
  record f hf := by
    rw [s.retire_fault, hfault] at hf
    cases hf

theorem resolve_eq_none {b : Base} {w : Word32} (h : ∀ i : Instr, decode b w ≠ .insn i) : resolve b w = none := by
  cases hd : decode b w with
  | insn i => exact absurd hd (h i)
  | illegalOpcode => simp only [resolve, hd, otherDecode]
  | notScalarCrypto => simp only [resolve, hd, otherDecode]

theorem State.Sound.raiseIllegal {s : State} (h : s.Sound) {w : Word32} (hfetch : s.fetch = .ok w)
    (hnone : resolve s.base w = none) : (s.raiseIllegal w).Sound where
  memory := h.memory
  space := h.space
  aligned := h.aligned
  pcFits := h.pcFits
  cellsFit := h.cellsFit
  record f hf := by
    obtain rfl := Option.some.inj hf
    exact ⟨rfl, rfl, hfetch, hnone⟩

theorem State.Sound.exec {s t : State} (h : s.Sound) (hfault : s.fault = none) {i : Instr}
    (hwf : i.wellFormed s.base = true) (hexec : exec i s = .next t) : t.Sound := by
  obtain ⟨-, v, rfl⟩ | ⟨hwf', -⟩ := exec_cases hexec
  · cases i.isCsrRead with
    | false => exact h.retire hfault i.rd v
    | true => exact h.afterDraw.retire hfault i.rd v
  · cases hwf.symm.trans hwf'

theorem launch_sound {b : Base} {pc : Word64} {x : Vector Word64 31} {m : List Host.Cell} (hmem : memWf m = true)
    (hspace : ∀ c ∈ m, c.1 < 2 ^ b.xlen) (hpc : fitXlen b pc = pc) (haligned : pc.toNat % 4 = 0)
    (hcells : ∀ v ∈ x.toList, fitXlen b v = v) : (State.launch b pc x m).Sound where
  memory := hmem
  space := hspace
  aligned := (congrArg (fun v : Word64 => v.toNat % 4) hpc).trans haligned
  pcFits := hpc
  cellsFit := hcells
  record _ hf := absurd hf.symm (Option.some_ne_none _)

/-! ### Runs -/

theorem run_succ {s t : State} (n : Nat) (h : step s = .next t) : core.run (n + 1) s = core.run n t := by
  have hcore : core.step s = .next t := h
  simp only [Host.Core.run, hcore]

theorem run_succ_next {n : Nat} {s t : State} (h : core.run (n + 1) s = .next t) :
    ∃ u : State, step s = .next u ∧ core.run n u = .next t := by
  cases hstep : step s with
  | next u => exact ⟨u, rfl, (run_succ n hstep).symm.trans h⟩
  | fault f =>
    have hcore : core.step s = .fault f := hstep
    simp only [Host.Core.run, hcore] at h
    cases h
  | refused r =>
    have hcore : core.step s = .refused r := hstep
    simp only [Host.Core.run, hcore] at h
    cases h

/-- The word at an aligned `pc` that is an instruction completes. -/
theorem step_of_memWord {s : State} {w : Word32} {i : Instr} (hfault : s.fault = none)
    (haligned : s.readPc.toNat % 4 = 0) (hword : memWord s.mem s.readPc.toNat = some w)
    (hd : decode s.base w = .insn i) :
    ∃ t : State, step s = .next t ∧ t.readPc.toNat = (s.readPc.toNat + 4) % 2 ^ s.base.xlen ∧ t.fault = none ∧
      t.base = s.base ∧ t.mem = s.mem := by
  obtain ⟨t, v, hexec, hret⟩ := exec_retired (wellFormed_of_decode hd)
  have hstep : step s = .next t := (step_eq_exec hfault (fetch_eq_ok haligned hword) hd).trans hexec
  exact ⟨t, hstep, hret.pc, hret.fault.trans hfault, exec_base_mem hexec⟩

end Sys2Proof.Machine

/-! ### The statements -/

namespace Sys2Proof.Proofs

open Sys2Proof Sys2Proof.Machine

/-- Settles O41. An instruction retires, which keeps each clause, or the word fetched is none and the record filled with
it says what the invariant demands. -/
theorem stepKeepsStateSound : Obligations.StepKeepsStateSound := by
  unfold Obligations.StepKeepsStateSound
  intro s t hsound hstep
  obtain ⟨hfault, w, hfetch, ⟨i, hd, hexec⟩ | ⟨hd, rfl⟩⟩ := step_next hstep
  · exact hsound.exec hfault (wellFormed_of_decode hd) hexec
  · exact hsound.raiseIllegal hfetch (resolve_eq_none hd)

/-- Settles O27. The four bytes make the word that fetch answers. -/
theorem stepRunsDecodedInstruction : Obligations.StepRunsDecodedInstruction := by
  unfold Obligations.StepRunsDecodedInstruction
  intro s b0 b1 b2 b3 i hfault haligned h0 h1 h2 h3 hd
  have hword : memWord s.mem s.readPc.toNat = some (wordOfBytes b0 b1 b2 b3) :=
    memWord_eq_some_iff.mpr ⟨b0, b1, b2, b3, h0, h1, h2, h3, rfl⟩
  have hinsn : decode s.base (wordOfBytes b0 b1 b2 b3) = .insn i := (Prod.mk.inj (Option.some.inj hd)).1
  exact step_eq_exec hfault (fetch_eq_ok haligned hword) hinsn

/-- Settles O28, one clause per answer of fetch. -/
theorem fetchIsLittleEndianOrStuck : Obligations.FetchIsLittleEndianOrStuck := by
  unfold Obligations.FetchIsLittleEndianOrStuck
  intro s hfault
  refine ⟨fun hmisaligned => ?_, fun haligned ⟨k, hk, hbyte⟩ => ?_, fun haligned b0 b1 b2 b3 h0 h1 h2 h3 => ?_⟩
  · exact step_eq_fault hfault (fetch_eq_misaligned hmisaligned)
  · exact step_eq_fault hfault (fetch_eq_unmapped haligned (memWord_eq_none hk hbyte))
  · exact fetch_eq_ok haligned (memWord_eq_some_iff.mpr ⟨b0, b1, b2, b3, h0, h1, h2, h3, rfl⟩)

/-- Settles O31, by the three cases of a step. -/
theorem stepCompletesOrTrapsOrIsStuck : Obligations.StepCompletesOrTrapsOrIsStuck := by
  unfold Obligations.StepCompletesOrTrapsOrIsStuck
  intro s
  refine ⟨fun r hrefused => ?refuses, fun f hstop => ?stops, fun t hnext => ?next⟩
  case refuses =>
    obtain ⟨-, hstep⟩ | ⟨f, -, -, hstep⟩ | ⟨w, t, -, -, -, hstep⟩ := step_cases s <;>
      cases hrefused.symm.trans hstep
  case stops =>
    obtain ⟨⟨g, hfault⟩, hstep⟩ | ⟨g, hfault, hfetch, hstep⟩ | ⟨w, t, -, -, -, hstep⟩ := step_cases s
    · cases hstop.symm.trans hstep
      exact .inl ⟨by simp [hfault], rfl⟩
    · cases hstop.symm.trans hstep
      exact .inr ⟨hfault, hfetch⟩
    · cases hstop.symm.trans hstep
  case next =>
    obtain ⟨hfault, w, hfetch, hsteps⟩ := step_next hnext
    refine ⟨hfault, w, hfetch, ?_⟩
    obtain ⟨i, hd, hexec⟩ | ⟨hd, rfl⟩ := hsteps
    · obtain ⟨⟨v, hret⟩, hdraws⟩ := retired_of_exec (wellFormed_of_decode hd) hexec
      exact .inl ⟨i, v, hd, hret, hdraws⟩
    · exact .inr ⟨hd, s.raiseIllegal_spec w⟩

/-- Settles O32. The load leaves its word where fetch reads it, on the base on which the word is an instruction. -/
theorem loadedWordRunsNext : Obligations.LoadedWordRunsNext := by
  unfold Obligations.LoadedWordRunsNext
  intro s w i hd
  have htable : tableWord 32 w.toNat = w := by
    rw [tableWord, Nat.mod_eq_of_lt w.isLt, BitVec.ofNat_toNat, BitVec.setWidth_eq]
  have hload : s.withFetchWord 32 w.toNat = State.placeWord { s with base := baseFor s.base w } w := by
    rw [State.withFetchWord, htable]
  rw [hload]
  refine ⟨step_eq_exec rfl (State.fetch_placeWord _ w) hd, rfl, rfl, fun a ha => ?_⟩
  rw [(State.readPc_placeWord _ w).1] at ha
  exact memByte_memPutBytes_other s.mem _ a w ha

/-- Settles O33. -/
theorem everyLegalInstructionCompletes : Obligations.EveryLegalInstructionCompletes := by
  unfold Obligations.EveryLegalInstructionCompletes
  exact fun i s hwf => exec_retired hwf

/-- Settles O34. -/
theorem illFormedInstructionTraps : Obligations.IllFormedInstructionTraps := by
  unfold Obligations.IllFormedInstructionTraps
  exact fun i s hwf => traps_of_not_wellFormed hwf

/-- Settles O35. -/
theorem onlyTheDestinationChanges : Obligations.OnlyTheDestinationChanges := by
  unfold Obligations.OnlyTheDestinationChanges
  intro i s t hexec
  obtain ⟨hothers, hdraws⟩ := exec_frame hexec
  obtain ⟨hbase, hmem⟩ := exec_base_mem hexec
  exact ⟨hothers, fun a => by rw [State.readByte, State.readByte, hmem], hbase, hdraws⟩

/-- Settles O39. A completed instruction with `rd = x0` leaves 0 there, where 0 was before. -/
theorem registerZeroIsHardwired : Obligations.RegisterZeroIsHardwired := by
  unfold Obligations.RegisterZeroIsHardwired
  refine fun s => ⟨s.readX_zero, s.writeX_zero, fun i hrd hwf => ?_⟩
  obtain ⟨t, v, hexec, hret⟩ := exec_retired hwf
  refine ⟨t, hexec, fun r => ?_, hret.pc, hret.fault⟩
  by_cases hr : r = 0#5
  · rw [hr, t.readX_zero, s.readX_zero]
  · exact hret.others r (hrd ▸ hr)

/-- Settles O40, by induction on the number of steps. -/
theorem baseAndMemoryAreFixedForTheRun : Obligations.BaseAndMemoryAreFixedForTheRun := by
  unfold Obligations.BaseAndMemoryAreFixedForTheRun
  intro n
  induction n with
  | zero =>
    intro s t h
    cases h
    exact ⟨rfl, rfl⟩
  | succ n ih =>
    intro s t h
    obtain ⟨u, hstep, hrun⟩ := run_succ_next h
    obtain ⟨hbase, hmem⟩ := step_base_mem hstep
    obtain ⟨hbase', hmem'⟩ := ih u t hrun
    exact ⟨hbase'.trans hbase, hmem'.trans hmem⟩

/-- Settles O45, by induction on the number of words. Only after the last word of the line can `pc` wrap to 0. -/
theorem straightLineRunsToItsEnd : Obligations.StraightLineRunsToItsEnd := by
  unfold Obligations.StraightLineRunsToItsEnd
  intro n
  induction n with
  | zero =>
    intro s hfault haligned _ _
    have hpc : (s.readPc.toNat + 4 * 0) % 2 ^ s.base.xlen = s.readPc.toNat := Nat.mod_eq_of_lt s.readPc_lt
    rw [hpc]
    exact ⟨s, rfl, rfl, hfault, fun hword => step_eq_fault hfault (fetch_eq_unmapped haligned hword)⟩
  | succ n ih =>
    intro s hfault haligned hspace hline
    obtain ⟨w, i, hword, hd⟩ := hline 0 (Nat.succ_pos n)
    obtain ⟨u, hstep, hpc, hfaultu, hbase, hmem⟩ := step_of_memWord hfault haligned hword hd
    have hinside : 0 < n → u.readPc.toNat = s.readPc.toNat + 4 := fun hn => by
      rw [hpc, Nat.mod_eq_of_lt (by omega)]
    have hspaceu : u.readPc.toNat + 4 * n ≤ 2 ^ u.base.xlen := by
      have hlt := u.readPc_lt
      rw [hbase] at hlt ⊢
      omega
    have halignedu : u.readPc.toNat % 4 = 0 := by
      rw [hpc, Nat.mod_mod_of_dvd _ (four_dvd_two_pow_xlen s.base)]
      omega
    have hlineu : ∀ k : Nat, k < n → ∃ (w : Word32) (i : Instr),
        memWord u.mem (u.readPc.toNat + 4 * k) = some w ∧ decode u.base w = .insn i := fun k hk => by
      rw [hmem, hbase, hinside (by omega), show s.readPc.toNat + 4 + 4 * k = s.readPc.toNat + 4 * (k + 1) by omega]
      exact hline (k + 1) (Nat.succ_lt_succ hk)
    have hend : (u.readPc.toNat + 4 * n) % 2 ^ s.base.xlen = (s.readPc.toNat + 4 * (n + 1)) % 2 ^ s.base.xlen := by
      rw [hpc, Nat.mod_add_mod, show s.readPc.toNat + 4 + 4 * n = s.readPc.toNat + 4 * (n + 1) by omega]
    obtain ⟨t, hrun, hpct, hfaultt, hstuck⟩ := ih u hfaultu halignedu hspaceu hlineu
    rw [hbase, hend] at hpct hstuck
    exact ⟨t, (run_succ n hstep).trans hrun, hpct, hfaultt, hmem ▸ hstuck⟩

/-- Settles O42. A launch state has no fault record, and the choices are what the other clauses speak of. -/
theorem resetAndLaunchStatesAreSound : Obligations.ResetAndLaunchStatesAreSound := by
  unfold Obligations.ResetAndLaunchStatesAreSound
  refine ⟨launch_sound rfl (fun _ hc => absurd hc List.not_mem_nil) rfl rfl (fun _ _ => rfl), ?_⟩
  exact fun b pc x m hmem hspace hpc haligned hcells => launch_sound hmem hspace hpc haligned hcells

/-- Settles O43. The vector of the chosen values has that of `x[r]` at index `r - 1`. -/
theorem launchStateLeavesRegistersOpen : Obligations.LaunchStateLeavesRegistersOpen := by
  unfold Obligations.LaunchStateLeavesRegistersOpen
  intro b pc m values
  refine ⟨Vector.ofFn fun k => values (BitVec.ofNat 5 (k.val + 1)), State.readX_zero _, fun r hr => ?_, rfl, rfl,
    fun _ => rfl⟩
  have hpos : r.toNat ≠ 0 := fun h => hr (BitVec.eq_of_toNat_eq h)
  have hindex : BitVec.ofNat 5 (r.toNat - 1 + 1) = r := by
    rw [Nat.sub_one_add_one hpos, BitVec.ofNat_toNat, BitVec.setWidth_eq]
  rw [State.readX, if_neg hr]
  simp only [State.launch, Vector.getElem_ofFn, hindex]

/-- Settles O44. -/
theorem resetValuesTheModelNames : Obligations.ResetValuesTheModelNames := by
  unfold Obligations.ResetValuesTheModelNames
  refine ⟨rfl, rfl, fun r => ?_, rfl, fun _ => rfl, rfl⟩
  simp [State.readX, State.reset, State.launch, Config.resetBase]

end Sys2Proof.Proofs

/-! # Proofs: SHA-512 on RV32 (45_sha512_rv32.md) and the pseudo-ops (40_entropy_pseudo_ops.md) -/

namespace Sys2Proof.Machine

/-! ### What `exec` does with each instruction -/

theorem exec_sha512sum0r (rd rs1 rs2 : RegIdx) (s : State) : exec (.sha512sum0r rd rs1 rs2) s =
    ifLegal (.sha512sum0r rd rs1 rs2) s (s.retire32 rd (semSha512sum0r (s.src32 rs1) (s.src32 rs2))) := rfl

theorem exec_sha512sum1r (rd rs1 rs2 : RegIdx) (s : State) : exec (.sha512sum1r rd rs1 rs2) s =
    ifLegal (.sha512sum1r rd rs1 rs2) s (s.retire32 rd (semSha512sum1r (s.src32 rs1) (s.src32 rs2))) := rfl

theorem exec_sha512sig0l (rd rs1 rs2 : RegIdx) (s : State) : exec (.sha512sig0l rd rs1 rs2) s =
    ifLegal (.sha512sig0l rd rs1 rs2) s (s.retire32 rd (semSha512sig0l (s.src32 rs1) (s.src32 rs2))) := rfl

theorem exec_sha512sig0h (rd rs1 rs2 : RegIdx) (s : State) : exec (.sha512sig0h rd rs1 rs2) s =
    ifLegal (.sha512sig0h rd rs1 rs2) s (s.retire32 rd (semSha512sig0h (s.src32 rs1) (s.src32 rs2))) := rfl

theorem exec_sha512sig1l (rd rs1 rs2 : RegIdx) (s : State) : exec (.sha512sig1l rd rs1 rs2) s =
    ifLegal (.sha512sig1l rd rs1 rs2) s (s.retire32 rd (semSha512sig1l (s.src32 rs1) (s.src32 rs2))) := rfl

theorem exec_sha512sig1h (rd rs1 rs2 : RegIdx) (s : State) : exec (.sha512sig1h rd rs1 rs2) s =
    ifLegal (.sha512sig1h rd rs1 rs2) s (s.retire32 rd (semSha512sig1h (s.src32 rs1) (s.src32 rs2))) := rfl

theorem exec_pollentropy (rd : RegIdx) (s : State) : exec (.pollentropy rd) s = .next (s.readEntropy rd) := rfl

theorem exec_getnoise (rd : RegIdx) (s : State) : exec (.getnoise rd) s = .next (s.readEntropy rd) := rfl

/-! ### The word together with the result -/

/-- On RV32 the 32-bit result is written with zeros above. -/
theorem decodes_and_completes_of_retire32_rv32 {i : Instr} {s : State} {z : Word32} (hbase : s.base = .rv32)
    (hcsr : i.isCsrRead = false) (hwf : i.wellFormed .rv32 = true)
    (hexec : exec i s = ifLegal i s (s.retire32 i.rd z)) :
    decode .rv32 (encode i) = .insn i ∧ Completes i s (z.setWidth 64) := by
  have h := decodes_and_completes_of_retire32 (rowMatch i) hcsr (hbase ▸ hwf) hexec
  rwa [hbase] at h

/-- The fields `rs1` and func3 of a CSR read, which the model holds as one (30_encoding.md R81). -/
theorem wordCsrRead_eq_fields (csr : CsrNum) (rd : RegIdx) :
    (csr ++ 0b00000#5 ++ 0b010#3 ++ rd ++ 0b1110011#7 : Word32) = wordCsrRead csr rd :=
  congrArg (fun high : BitVec 20 => (high ++ rd ++ 0b1110011#7 : Word32))
    (BitVec.append_assoc (x₁ := csr) (x₂ := 0b00000#5) (x₃ := 0b010#3))

/-- A CSR read writes the draw, and the next draw is another. -/
theorem State.readEntropy_spec (s : State) (rd : RegIdx) :
    Retired s (s.readEntropy rd) rd (fitXlen s.base (Config.entropyRead s.draws)) ∧
      (s.readEntropy rd).draws = s.draws + 1 := by
  have h := (s.afterDraw.retire_spec rd s.drawn).of_afterDraw
  rw [State.afterDraw_base, State.drawn, fitXlen_fitXlen] at h
  exact ⟨h, s.afterDraw.retire_draws _ _⟩

end Sys2Proof.Machine

/-! ### The statements -/

namespace Sys2Proof.Proofs

open Sys2Proof Sys2Proof.Machine

/-- Settles O14. The six instructions are legal on RV32 for all registers, so that their words decode and they complete;
the results are by definition the terms of R150 to R155. -/
theorem sha512Rv32Results : Obligations.Sha512Rv32Results := by
  unfold Obligations.Sha512Rv32Results
  rintro s rd rs1 rs2 _ _ hbase rfl rfl
  obtain ⟨wordSum0r, resultSum0r⟩ :=
    decodes_and_completes_of_retire32_rv32 hbase rfl rfl (exec_sha512sum0r rd rs1 rs2 s)
  obtain ⟨wordSum1r, resultSum1r⟩ :=
    decodes_and_completes_of_retire32_rv32 hbase rfl rfl (exec_sha512sum1r rd rs1 rs2 s)
  obtain ⟨wordSig0l, resultSig0l⟩ :=
    decodes_and_completes_of_retire32_rv32 hbase rfl rfl (exec_sha512sig0l rd rs1 rs2 s)
  obtain ⟨wordSig0h, resultSig0h⟩ :=
    decodes_and_completes_of_retire32_rv32 hbase rfl rfl (exec_sha512sig0h rd rs1 rs2 s)
  obtain ⟨wordSig1l, resultSig1l⟩ :=
    decodes_and_completes_of_retire32_rv32 hbase rfl rfl (exec_sha512sig1l rd rs1 rs2 s)
  obtain ⟨wordSig1h, resultSig1h⟩ :=
    decodes_and_completes_of_retire32_rv32 hbase rfl rfl (exec_sha512sig1h rd rs1 rs2 s)
  exact ⟨⟨wordSum0r, wordSum1r, wordSig0l, wordSig0h, wordSig1l, wordSig1h⟩, resultSum0r, resultSum1r, resultSig0l,
    resultSig0h, resultSig1l, resultSig1h⟩

/-- Settles O19. The words are those of the two pseudo-ops, whose CSR numbers differ, and both read one draw. -/
theorem entropyReadResults : Obligations.EntropyReadResults := by
  unfold Obligations.EntropyReadResults
  intro s rd
  rw [wordCsrRead_eq_fields, wordCsrRead_eq_fields]
  exact ⟨decode_csrPollentropy s.base rd, decode_csrGetnoise s.base rd,
    ⟨_, exec_pollentropy rd s, s.readEntropy_spec rd⟩, ⟨_, exec_getnoise rd s, s.readEntropy_spec rd⟩⟩

end Sys2Proof.Proofs

/-! # Proofs: what an instruction reads (10_state.md R20, R28; 00_scope.md R9) -/

namespace Sys2Proof.Machine

/-! ### The result as a function of the sources -/

/-- Every instruction retires a result that depends on the base, its source registers and, for a pseudo-op, the count of
draws alone. -/
theorem exec_eq_ifLegal_of_sources (i : Instr) : ∃ result : State → Word64,
    (∀ s, exec i s = ifLegal i s ((if i.isCsrRead then s.afterDraw else s).retire i.rd (result s))) ∧
    ∀ s q : State, s.base = q.base → (∀ r ∈ i.sources, s.readX r = q.readX r) →
      (i.isCsrRead = true → s.draws = q.draws) → result s = result q := by
  cases i <;> refine ⟨fun s => _, fun s => rfl, fun s q hbase hsources hdraws => ?_⟩
  all_goals
    simp only [Instr.sources, Instr.isCsrRead, List.forall_mem_cons, List.not_mem_nil, false_implies, implies_true,
      and_true] at hsources hdraws
    simp [State.src32, State.drawn, hbase, hsources, hdraws]

/-- The instructions of both bases but the pseudo-ops retire the extension of a 32-bit result that depends on the low
halves of the source registers alone. -/
theorem exec_eq_ifLegal_of_low_halves {i : Instr} (hcsr : i.isCsrRead = false) (hon32 : i.onBase .rv32 = true)
    (hon64 : i.onBase .rv64 = true) : ∃ result : State → Word32,
    (∀ s, exec i s = ifLegal i s (s.retire32 i.rd (result s))) ∧
    ∀ s q : State, (∀ r ∈ i.sources, lo32 (s.readX r) = lo32 (q.readX r)) → result s = result q := by
  cases i with
  | sm4ed rd rs1 rs2 bs | sm4ks rd rs1 rs2 bs | sm3p0 rd rs1 | sm3p1 rd rs1 | sha256sum0 rd rs1 | sha256sum1 rd rs1
  | sha256sig0 rd rs1 | sha256sig1 rd rs1 =>
    refine ⟨fun s => _, fun s => rfl, fun s q hsources => ?_⟩
    simp only [Instr.sources, List.forall_mem_cons] at hsources
    simp only [State.src32, hsources]
  | aes64ks1i | aes64ks2 | aes64im | aes64esm | aes64es | aes64dsm | aes64ds | sha512sum0 | sha512sum1 | sha512sig0
  | sha512sig1 => cases hon32
  | pollentropy | getnoise => cases hcsr
  | _ => cases hon64

/-! ### Updates that an instruction does not see -/

/-- An update that leaves the base and the `pc` alone commutes with the choice between effect and exception. -/
theorem ifLegal_onNext {i : Instr} {s e : State} {g : State → State} (hbase : (g s).base = s.base)
    (hraise : (g s).raiseIllegal (encode i) = g (s.raiseIllegal (encode i))) :
    ifLegal i (g s) (g e) = onNext g (ifLegal i s e) := by
  unfold ifLegal
  rw [hbase, hraise]
  split <;> rfl

section WriteX

variable (s : State) (r : RegIdx) (v : Word64)

theorem State.writeX_of_ne_zero (h : r ≠ 0#5) :
    s.writeX r v = { s with x := s.x.set (r.toNat - 1) (fitXlen s.base v) (regSlot_lt r) } := if_neg h

theorem State.afterDraw_writeX : (s.writeX r v).afterDraw = s.afterDraw.writeX r v := by
  unfold State.writeX
  split <;> rfl

theorem State.raiseIllegal_writeX (w : Word32) : (s.writeX r v).raiseIllegal w = (s.raiseIllegal w).writeX r v := by
  unfold State.writeX
  split <;> rfl

theorem State.advancePc_writeX : (s.writeX r v).advancePc = s.advancePc.writeX r v := by
  unfold State.writeX
  split <;> rfl

theorem State.writeX_comm {q : RegIdx} (u : Word64) (h : q ≠ r) :
    (s.writeX r v).writeX q u = (s.writeX q u).writeX r v := by
  by_cases hr : r = 0#5
  · rw [hr, State.writeX_zero, State.writeX_zero]
  by_cases hq : q = 0#5
  · rw [hq, State.writeX_zero, State.writeX_zero]
  have hslots : r.toNat - 1 ≠ q.toNat - 1 := fun e => h (regSlot_inj hr hq e).symm
  simp only [State.writeX_of_ne_zero _ _ _ hr, State.writeX_of_ne_zero _ _ _ hq, Vector.set_comm _ _ hslots]

theorem State.retire_writeX {q : RegIdx} (u : Word64) (h : q ≠ r) :
    (s.writeX r v).retire q u = (s.retire q u).writeX r v := by
  rw [State.retire, State.writeX_comm s r v u h, State.advancePc_writeX, State.retire]

theorem State.retire_with_draws (n : Nat) (rd : RegIdx) :
    State.retire { s with draws := n } rd v = { s.retire rd v with draws := n } := by
  unfold State.retire State.writeX
  split <;> rfl

end WriteX

end Sys2Proof.Machine

/-! ### The statements -/

namespace Sys2Proof.Proofs

open Sys2Proof Sys2Proof.Machine

/-- Settles O36. The result is the same, since no source was written, and the write commutes with what the instruction
does to the state. -/
theorem unnamedRegistersDoNotMatter : Obligations.UnnamedRegistersDoNotMatter := by
  unfold Obligations.UnnamedRegistersDoNotMatter
  intro i s r v hsources hrd
  obtain ⟨result, hexec, hresult⟩ := exec_eq_ifLegal_of_sources i
  have hsame : result (s.writeX r v) = result s :=
    hresult _ _ (s.writeX_base r v) (fun q hq => s.readX_writeX_other v fun e => hsources (e ▸ hq))
      (fun _ => s.writeX_draws r v)
  rw [hexec, hexec, hsame,
    ← ifLegal_onNext (g := fun t => t.writeX r v) (s.writeX_base r v) (s.raiseIllegal_writeX r v _)]
  cases i.isCsrRead with
  | false => exact congrArg _ (s.retire_writeX r v _ hrd.symm)
  | true =>
    refine congrArg _ (Eq.trans ?_ (s.afterDraw.retire_writeX r v (result s) hrd.symm))
    exact congrArg (State.retire · i.rd (result s)) (s.afterDraw_writeX r v)

/-- Settles O37. The result is the same, since no pseudo-op reads the count, and nothing else looks at it. -/
theorem onlyPseudoOpsDependOnDraws : Obligations.OnlyPseudoOpsDependOnDraws := by
  unfold Obligations.OnlyPseudoOpsDependOnDraws
  intro i s n hcsr
  obtain ⟨result, hexec, hresult⟩ := exec_eq_ifLegal_of_sources i
  have hsame : result { s with draws := n } = result s :=
    hresult _ _ rfl (fun _ _ => rfl) (fun h => absurd (hcsr.symm.trans h) Bool.false_ne_true)
  rw [hexec, hexec, hsame, hcsr, ← ifLegal_onNext (g := fun t => { t with draws := n }) rfl rfl]
  exact congrArg _ (s.retire_with_draws (result s) n i.rd)

/-- Settles O38. The results of the two states are the extensions of one 32-bit value. -/
theorem upperHalvesAreIgnoredOnRv64 : Obligations.UpperHalvesAreIgnoredOnRv64 := by
  unfold Obligations.UpperHalvesAreIgnoredOnRv64
  intro i s q hs hq hcsr hon32 hwf hsources
  obtain ⟨hon64, -⟩ : i.onBase .rv64 = true ∧ i.fieldsLegal = true := Bool.and_eq_true_iff.mp hwf
  obtain ⟨result, hexec, hresult⟩ := exec_eq_ifLegal_of_low_halves hcsr hon32 hon64
  obtain ⟨t, hexect, hrett, -⟩ := completes_of_retire32 (hexec s) (hs ▸ hwf)
  obtain ⟨u, hexecu, hretu, -⟩ := completes_of_retire32 (hexec q) (hq ▸ hwf)
  have ht := hrett.dest
  have hu := hretu.dest
  rw [hs] at ht
  rw [hq, ← hresult s q hsources] at hu
  refine ⟨t, u, hexect, hexecu, ht.trans hu.symm, ?_⟩
  by_cases hrd : i.rd = 0#5
  · rw [hrd, t.readX_zero]
    rfl
  · rw [ht, if_neg hrd, lo32_sextXlen]
    rfl

end Sys2Proof.Proofs

/-! # Proofs: the column functions and what they compose into (48_crypto_tables.md R194 to R199) -/

namespace Sys2Proof.Machine

/-! ### The bytes of a word -/

section Bytes

variable (b0 b1 b2 b3 : Byte)

@[simp] theorem byte32_append_zero : byte32 (b3 ++ b2 ++ b1 ++ b0) 0 = b0 :=
  BitVec.extractLsb'_append_eq_right (a := b3 ++ b2 ++ b1)

@[simp] theorem byte32_append_one : byte32 (b3 ++ b2 ++ b1 ++ b0) 1 = b1 :=
  (BitVec.extractLsb'_append_eq_of_le (xhi := b3 ++ b2 ++ b1) (by omega)).trans
    (BitVec.extractLsb'_append_eq_right (a := b3 ++ b2))

@[simp] theorem byte32_append_two : byte32 (b3 ++ b2 ++ b1 ++ b0) 2 = b2 :=
  (BitVec.extractLsb'_append_eq_of_le (xhi := b3 ++ b2 ++ b1) (by omega)).trans
    ((BitVec.extractLsb'_append_eq_of_le (xhi := b3 ++ b2) (by omega)).trans
      (BitVec.extractLsb'_append_eq_right (a := b3)))

@[simp] theorem byte32_append_three : byte32 (b3 ++ b2 ++ b1 ++ b0) 3 = b3 :=
  (BitVec.extractLsb'_append_eq_of_le (xhi := b3 ++ b2 ++ b1) (by omega)).trans
    ((BitVec.extractLsb'_append_eq_of_le (xhi := b3 ++ b2) (by omega)).trans
      (BitVec.extractLsb'_append_eq_left (b := b2)))

end Bytes

theorem append_bytes (w : Word32) : byte32 w 3 ++ byte32 w 2 ++ byte32 w 1 ++ byte32 w 0 = w := wordOfBytes_bytes w

/-- Words with the same bytes are the same. -/
theorem word_ext {v w : Word32} (h : ∀ k < 4, byte32 v k = byte32 w k) : v = w := by
  rw [← append_bytes v, ← append_bytes w, h 0 (by decide), h 1 (by decide), h 2 (by decide), h 3 (by decide)]

theorem byte32_xor (v w : Word32) (k : Nat) : byte32 (v ^^^ w) k = byte32 v k ^^^ byte32 w k := BitVec.extractLsb'_xor

/-! ### Rotations -/

theorem getLsbD_rol32 (v : Word32) {n i : Nat} (hn : n < 32) (hi : i < 32) :
    (rol32 v n).getLsbD i = v.getLsbD ((i + (32 - n)) % 32) := by
  rw [rol32, BitVec.getLsbD_rotateLeft_of_le hn]
  by_cases h : i < n
  · rw [decide_eq_true h, cond_true]
    congr 1
    omega
  · rw [decide_eq_false h, cond_false, decide_eq_true hi, Bool.true_and]
    congr 1
    omega

theorem rol32_xor (v w : Word32) {n : Nat} (hn : n < 32) : rol32 (v ^^^ w) n = rol32 v n ^^^ rol32 w n := by
  refine BitVec.eq_of_getLsbD_eq fun i hi => ?_
  simp only [BitVec.getLsbD_xor, getLsbD_rol32 _ hn hi]

theorem rol32_comm (v : Word32) {m n : Nat} (hm : m < 32) (hn : n < 32) :
    rol32 (rol32 v m) n = rol32 (rol32 v n) m := by
  refine BitVec.eq_of_getLsbD_eq fun i hi => ?_
  rw [getLsbD_rol32 _ hn hi, getLsbD_rol32 _ hm hi, getLsbD_rol32 _ hm (Nat.mod_lt _ (by decide)),
    getLsbD_rol32 _ hn (Nat.mod_lt _ (by decide))]
  congr 1
  omega

/-- A rotation by whole bytes. -/
theorem byte32_rol32 (w : Word32) {j k : Nat} (hj : j < 4) (hk : k < 4) :
    byte32 (rol32 w (8 * k)) j = byte32 w ((j + (4 - k)) % 4) := by
  refine BitVec.eq_of_getLsbD_eq fun i hi => ?_
  rw [byte32, byte32, BitVec.getLsbD_extractLsb', BitVec.getLsbD_extractLsb', getLsbD_rol32 _ (by omega) (by omega)]
  congr 2
  omega

/-! ### A byte alone in row 0 of a column -/

theorem setWidth_eq_append_zeros : ∀ y : Byte, y.setWidth 32 = 0#8 ++ 0#8 ++ 0#8 ++ y := by decide

section OneByte

variable (y : Byte)

@[simp] theorem byte32_setWidth_zero : byte32 (y.setWidth 32) 0 = y := by
  rw [setWidth_eq_append_zeros, byte32_append_zero]

@[simp] theorem byte32_setWidth_one : byte32 (y.setWidth 32) 1 = 0#8 := by
  rw [setWidth_eq_append_zeros, byte32_append_one]

@[simp] theorem byte32_setWidth_two : byte32 (y.setWidth 32) 2 = 0#8 := by
  rw [setWidth_eq_append_zeros, byte32_append_two]

@[simp] theorem byte32_setWidth_three : byte32 (y.setWidth 32) 3 = 0#8 := by
  rw [setWidth_eq_append_zeros, byte32_append_three]

end OneByte

/-- A word is the exclusive-or of its bytes, each rotated to its row. -/
theorem append_eq_xor_rol32 (y0 y1 y2 y3 : Byte) : y3 ++ y2 ++ y1 ++ y0 =
    y0.setWidth 32 ^^^ rol32 (y1.setWidth 32) (8 * 1) ^^^ rol32 (y2.setWidth 32) (8 * 2) ^^^
      rol32 (y3.setWidth 32) (8 * 3) := by
  refine word_ext fun j hj => ?_
  simp only [byte32_xor, byte32_rol32 _ hj (show 1 < 4 by decide), byte32_rol32 _ hj (show 2 < 4 by decide),
    byte32_rol32 _ hj (show 3 < 4 by decide)]
  match j with
  | 0 => simp
  | 1 => simp
  | 2 => simp
  | 3 => simp
  | _ + 4 => omega

/-! ### Column maps

Linear over exclusive-or and the same in every row: what such a map makes of a word is put together from what it makes
of the word's bytes in row 0. That is why four accumulating instructions compute it. -/

structure ColumnMap (F : Word32 → Word32) : Prop where
  map_xor : ∀ v w, F (v ^^^ w) = F v ^^^ F w
  map_rol32 : ∀ w, ∀ k < 4, F (rol32 w (8 * k)) = rol32 (F w) (8 * k)

theorem ColumnMap.map_append {F : Word32 → Word32} (h : ColumnMap F) (y0 y1 y2 y3 : Byte) :
    F (y3 ++ y2 ++ y1 ++ y0) = F (y0.setWidth 32) ^^^ rol32 (F (y1.setWidth 32)) (8 * 1) ^^^
      rol32 (F (y2.setWidth 32)) (8 * 2) ^^^ rol32 (F (y3.setWidth 32)) (8 * 3) := by
  rw [append_eq_xor_rol32, h.map_xor, h.map_xor, h.map_xor, h.map_rol32 _ 1 (by decide), h.map_rol32 _ 2 (by decide),
    h.map_rol32 _ 3 (by decide)]

/-- Four accumulating steps with byte select 0 to 3 (41_sm4.md, 44_aes32.md). -/
theorem ColumnMap.accumulate_four {F : Word32 → Word32} (h : ColumnMap F) {g : Byte → Word32}
    (hg : ∀ y, F (y.setWidth 32) = g y) (a : Word32) (y0 y1 y2 y3 : Byte) :
    accumulate (accumulate (accumulate (accumulate a (g y0) 0#2) (g y1) 1#2) (g y2) 2#2) (g y3) 3#2 =
      a ^^^ F (y3 ++ y2 ++ y1 ++ y0) := by
  have hzero : rol32 (g y0) 0 = g y0 := BitVec.eq_of_getLsbD_eq fun i hi => by
    rw [getLsbD_rol32 _ (by decide) hi]
    congr 1
    omega
  rw [h.map_append, hg, hg, hg, hg]
  show rol32 (g y3) (8 * 3) ^^^ (rol32 (g y2) (8 * 2) ^^^ (rol32 (g y1) (8 * 1) ^^^ (rol32 (g y0) 0 ^^^ a))) = _
  rw [hzero]
  ac_rfl

theorem columnMap_id : ColumnMap id := ⟨fun _ _ => rfl, fun _ _ _ => rfl⟩

theorem columnMap_rol32 {n : Nat} (hn : n < 32) : ColumnMap (rol32 · n) where
  map_xor v w := rol32_xor v w hn
  map_rol32 w k hk := rol32_comm w (by omega) hn

theorem ColumnMap.xor {F G : Word32 → Word32} (hF : ColumnMap F) (hG : ColumnMap G) :
    ColumnMap fun w => F w ^^^ G w where
  map_xor v w := by
    rw [hF.map_xor, hG.map_xor]
    ac_rfl
  map_rol32 w k hk := by rw [hF.map_rol32 w k hk, hG.map_rol32 w k hk, rol32_xor _ _ (by omega)]

/-! ### MixColumns and InvMixColumns (R194, R195) -/

theorem gfmul_xor (a b : Byte) (c : BitVec 4) : gfmul (a ^^^ b) c = gfmul a c ^^^ gfmul b c := by
  have ite_xor : ∀ (p : Bool) (x y : Byte), (if p then x ^^^ y else 0#8) =
      (if p then x else 0#8) ^^^ (if p then y else 0#8) := by intro p x y; cases p <;> simp
  simp only [gfmul, xtime_xor, ite_xor]
  ac_rfl

theorem gfmul_one (b : Byte) : gfmul b 1#4 = b := by simp [gfmul]

theorem gfmul_zero_left (c : BitVec 4) : gfmul 0#8 c = 0#8 := by simpa using gfmul_xor 0#8 0#8 c

/-- A column function whose matrix is circulant: row `j` is `c0` times byte `j`, `c1` times byte `j + 1`, and so on,
modulo 4. -/
def Circulant (c0 c1 c2 c3 : BitVec 4) (F : Word32 → Word32) : Prop :=
  ∀ w, ∀ j < 4, byte32 (F w) j = gfmul (byte32 w j) c0 ^^^ gfmul (byte32 w ((j + 1) % 4)) c1 ^^^
    gfmul (byte32 w ((j + 2) % 4)) c2 ^^^ gfmul (byte32 w ((j + 3) % 4)) c3

theorem circulant_aesMixcolumnFwd : Circulant 2#4 3#4 1#4 1#4 aesMixcolumnFwd := by
  intro w j hj
  simp only [gfmul_one]
  match j with
  | 0 => simp only [aesMixcolumnFwd, byte32_append_zero]
  | 1 => simp only [aesMixcolumnFwd, byte32_append_one, Nat.reduceAdd, Nat.reduceMod]; ac_rfl
  | 2 => simp only [aesMixcolumnFwd, byte32_append_two, Nat.reduceAdd, Nat.reduceMod]; ac_rfl
  | 3 => simp only [aesMixcolumnFwd, byte32_append_three, Nat.reduceAdd, Nat.reduceMod]; ac_rfl
  | _ + 4 => omega

theorem circulant_aesMixcolumnInv : Circulant 0xE#4 0xB#4 0xD#4 9#4 aesMixcolumnInv := by
  intro w j hj
  match j with
  | 0 => simp only [aesMixcolumnInv, byte32_append_zero]
  | 1 => simp only [aesMixcolumnInv, byte32_append_one, Nat.reduceAdd, Nat.reduceMod]; ac_rfl
  | 2 => simp only [aesMixcolumnInv, byte32_append_two, Nat.reduceAdd, Nat.reduceMod]; ac_rfl
  | 3 => simp only [aesMixcolumnInv, byte32_append_three, Nat.reduceAdd, Nat.reduceMod]; ac_rfl
  | _ + 4 => omega

section Circulant

variable {c0 c1 c2 c3 : BitVec 4} {F : Word32 → Word32}

theorem Circulant.columnMap (h : Circulant c0 c1 c2 c3 F) : ColumnMap F where
  map_xor v w := by
    refine word_ext fun j hj => ?_
    rw [byte32_xor, h _ j hj, h _ j hj, h _ j hj]
    simp only [byte32_xor, gfmul_xor]
    ac_rfl
  map_rol32 w k hk := by
    refine word_ext fun j hj => ?_
    have hmod (n : Nat) : n % 4 < 4 := Nat.mod_lt n (by decide)
    have hshift (i : Nat) : ((j + i) % 4 + (4 - k)) % 4 = ((j + (4 - k)) % 4 + i) % 4 := by omega
    rw [byte32_rol32 _ hj hk, h _ j hj, h _ _ (hmod _), byte32_rol32 _ hj hk, byte32_rol32 _ (hmod _) hk,
      byte32_rol32 _ (hmod _) hk, byte32_rol32 _ (hmod _) hk, hshift, hshift, hshift]

/-- The column of the matrix: what the map makes of a byte in row 0. -/
theorem Circulant.map_setWidth (h : Circulant c0 c1 c2 c3 F) (y : Byte) :
    F (y.setWidth 32) = gfmul y c1 ++ gfmul y c2 ++ gfmul y c3 ++ gfmul y c0 := by
  refine word_ext fun j hj => ?_
  rw [h _ j hj]
  match j with
  | 0 => simp [gfmul_zero_left]
  | 1 => simp [gfmul_zero_left]
  | 2 => simp [gfmul_zero_left]
  | 3 => simp [gfmul_zero_left]
  | _ + 4 => omega

end Circulant

theorem aesMixcolumnFwd_setWidth (y : Byte) : aesMixcolumnFwd (y.setWidth 32) = aesMixbyteFwd y := by
  rw [circulant_aesMixcolumnFwd.map_setWidth, gfmul_one]
  rfl

theorem aesMixcolumnInv_setWidth (y : Byte) : aesMixcolumnInv (y.setWidth 32) = aesMixbyteInv y :=
  circulant_aesMixcolumnInv.map_setWidth y

/-! The product of the two circulant matrices is the identity: in each byte a polynomial identity in `xtime`. -/

theorem xor_left_comm (x y z : Byte) : x ^^^ (y ^^^ z) = y ^^^ (x ^^^ z) := by ac_rfl

theorem gfmul_product_diagonal (b : Byte) :
    gfmul (gfmul b 2#4) 0xE#4 ^^^ gfmul b 0xB#4 ^^^ gfmul b 0xD#4 ^^^ gfmul (gfmul b 3#4) 9#4 = b := by
  simp [gfmul, xtime_xor, BitVec.xor_assoc, BitVec.xor_comm, xor_left_comm]

theorem gfmul_product_next (b : Byte) :
    gfmul (gfmul b 3#4) 0xE#4 ^^^ gfmul (gfmul b 2#4) 0xB#4 ^^^ gfmul b 0xD#4 ^^^ gfmul b 9#4 = 0#8 := by
  simp [gfmul, xtime_xor, BitVec.xor_assoc, BitVec.xor_comm, xor_left_comm]

theorem gfmul_product_opposite (b : Byte) :
    gfmul b 0xE#4 ^^^ gfmul (gfmul b 3#4) 0xB#4 ^^^ gfmul (gfmul b 2#4) 0xD#4 ^^^ gfmul b 9#4 = 0#8 := by
  simp [gfmul, xtime_xor, BitVec.xor_assoc, BitVec.xor_comm, xor_left_comm]

theorem gfmul_product_last (b : Byte) :
    gfmul b 0xE#4 ^^^ gfmul b 0xB#4 ^^^ gfmul (gfmul b 3#4) 0xD#4 ^^^ gfmul (gfmul b 2#4) 9#4 = 0#8 := by
  simp [gfmul, xtime_xor, BitVec.xor_assoc, BitVec.xor_comm, xor_left_comm]

theorem gfmul_product_row (b0 b1 b2 b3 : Byte) :
    gfmul (gfmul b0 2#4 ^^^ gfmul b1 3#4 ^^^ b2 ^^^ b3) 0xE#4 ^^^
      gfmul (gfmul b1 2#4 ^^^ gfmul b2 3#4 ^^^ b3 ^^^ b0) 0xB#4 ^^^
      gfmul (gfmul b2 2#4 ^^^ gfmul b3 3#4 ^^^ b0 ^^^ b1) 0xD#4 ^^^
      gfmul (gfmul b3 2#4 ^^^ gfmul b0 3#4 ^^^ b1 ^^^ b2) 9#4 = b0 := by
  simp only [gfmul_xor]
  calc _ = (gfmul (gfmul b0 2#4) 0xE#4 ^^^ gfmul b0 0xB#4 ^^^ gfmul b0 0xD#4 ^^^ gfmul (gfmul b0 3#4) 9#4) ^^^
        (gfmul (gfmul b1 3#4) 0xE#4 ^^^ gfmul (gfmul b1 2#4) 0xB#4 ^^^ gfmul b1 0xD#4 ^^^ gfmul b1 9#4) ^^^
        (gfmul b2 0xE#4 ^^^ gfmul (gfmul b2 3#4) 0xB#4 ^^^ gfmul (gfmul b2 2#4) 0xD#4 ^^^ gfmul b2 9#4) ^^^
        (gfmul b3 0xE#4 ^^^ gfmul b3 0xB#4 ^^^ gfmul (gfmul b3 3#4) 0xD#4 ^^^ gfmul (gfmul b3 2#4) 9#4) := by ac_rfl
    _ = b0 := by
      rw [gfmul_product_diagonal, gfmul_product_next, gfmul_product_opposite, gfmul_product_last]
      simp

theorem aesMixcolumnInv_aesMixcolumnFwd (w : Word32) : aesMixcolumnInv (aesMixcolumnFwd w) = w := by
  refine word_ext fun j hj => ?_
  have hmod (n : Nat) : n % 4 < 4 := Nat.mod_lt n (by decide)
  have hindex (m n : Nat) : ((j + m) % 4 + n) % 4 = (j + (m + n) % 4) % 4 := by omega
  simp only [circulant_aesMixcolumnInv _ j hj, circulant_aesMixcolumnFwd _ j hj, circulant_aesMixcolumnFwd _ _ (hmod _),
    gfmul_one, hindex, Nat.reduceAdd, Nat.reduceMod, Nat.add_zero, Nat.mod_eq_of_lt hj]
  exact gfmul_product_row _ _ _ _

/-! ### The SM4 transforms (R199) -/

theorem byte32_bswap32 (w : Word32) {j : Nat} (hj : j < 4) : byte32 (bswap32 w) j = byte32 w (3 - j) := by
  match j with
  | 0 => exact byte32_append_zero ..
  | 1 => exact byte32_append_one ..
  | 2 => exact byte32_append_two ..
  | 3 => exact byte32_append_three ..
  | _ + 4 => omega

theorem bswap32_xor (v w : Word32) : bswap32 (v ^^^ w) = bswap32 v ^^^ bswap32 w := by
  refine word_ext fun j hj => ?_
  simp only [byte32_xor, byte32_bswap32 _ hj]

/-- In reversed order the bytes rotate the other way. -/
theorem bswap32_rol32 (w : Word32) {k : Nat} (hk : k < 4) :
    bswap32 (rol32 w (8 * k)) = rol32 (bswap32 w) (8 * ((4 - k) % 4)) := by
  refine word_ext fun j hj => ?_
  have hmod (n : Nat) : n % 4 < 4 := Nat.mod_lt n (by decide)
  rw [byte32_bswap32 _ hj, byte32_rol32 _ (by omega) hk, byte32_rol32 _ hj (hmod _), byte32_bswap32 _ (hmod _)]
  congr 1
  omega

theorem bswap32_onBytes4 (f : Byte → Byte) (w : Word32) : bswap32 (onBytes4 f w) = onBytes4 f (bswap32 w) := by
  simp [bswap32, onBytes4]

/-- A column map on byte-reversed words is a column map. -/
theorem ColumnMap.conj_bswap32 {F : Word32 → Word32} (h : ColumnMap F) :
    ColumnMap fun w => bswap32 (F (bswap32 w)) where
  map_xor v w := by rw [bswap32_xor, h.map_xor, bswap32_xor]
  map_rol32 w k hk := by
    have hmod (n : Nat) : n % 4 < 4 := Nat.mod_lt n (by decide)
    rw [bswap32_rol32 w hk, h.map_rol32 _ _ (hmod _), bswap32_rol32 _ (hmod _)]
    congr 2
    omega

theorem columnMap_sm4L : ColumnMap sm4L :=
  (((columnMap_id.xor (columnMap_rol32 (n := 2) (by decide))).xor (columnMap_rol32 (n := 10) (by decide))).xor
    (columnMap_rol32 (n := 18) (by decide))).xor (columnMap_rol32 (n := 24) (by decide))

theorem columnMap_sm4LPrime : ColumnMap sm4LPrime :=
  (columnMap_id.xor (columnMap_rol32 (n := 13) (by decide))).xor (columnMap_rol32 (n := 23) (by decide))

/-- The shifts and masks of `sm4_l_ed` are the transform `L` on a byte-reversed word with one byte. -/
theorem bswap32_sm4L_setWidth : ∀ y : Byte, bswap32 (sm4L (bswap32 (y.setWidth 32))) = sm4LEd y := by decide

theorem bswap32_sm4LPrime_setWidth : ∀ y : Byte, bswap32 (sm4LPrime (bswap32 (y.setWidth 32))) = sm4LKs y := by decide

/-! ### Halves of a doubleword -/

section Halves

variable (hi lo : Word32)

@[simp] theorem hi32_append : hi32 (hi ++ lo) = hi := BitVec.extractLsb'_append_eq_left

@[simp] theorem lo32_append : lo32 (hi ++ lo) = lo := BitVec.extractLsb'_append_eq_right

theorem append_halves (v : Word64) : hi32 v ++ lo32 v = v := BitVec.extractLsb'_append_extractLsb'

theorem onColumns_append (f : Word32 → Word32) : onColumns f (hi ++ lo) = f hi ++ f lo := by
  rw [onColumns, hi32_append, lo32_append]

theorem onBytes8_append (f : Byte → Byte) : onBytes8 f (hi ++ lo) = onBytes4 f hi ++ onBytes4 f lo :=
  onColumns_append hi lo (onBytes4 f)

theorem byte64_append_lo {k : Nat} (hk : k < 4) : byte64 (hi ++ lo) k = byte32 lo k :=
  BitVec.extractLsb'_append_eq_of_add_le (by omega)

theorem byte64_append_hi (k : Nat) : byte64 (hi ++ lo) (k + 4) = byte32 hi k := by
  refine (BitVec.extractLsb'_append_eq_of_le (by omega)).trans ?_
  rw [byte32, show 8 * (k + 4) - 32 = 8 * k by omega]

theorem append_four_bytes (b0 b1 b2 b3 : Byte) :
    (hi ++ b3 ++ b2 ++ b1 ++ b0 : Word64) = hi ++ (b3 ++ b2 ++ b1 ++ b0) := by
  have h2 : (hi ++ b3 ++ b2 : BitVec 48) = hi ++ (b3 ++ b2) := BitVec.append_assoc
  have h3 : (hi ++ (b3 ++ b2) ++ b1 : BitVec 56) = hi ++ (b3 ++ b2 ++ b1) := BitVec.append_assoc
  have h4 : (hi ++ (b3 ++ b2 ++ b1) ++ b0 : BitVec 64) = hi ++ (b3 ++ b2 ++ b1 ++ b0) := BitVec.append_assoc
  exact ((congrArg (fun x : BitVec 56 => (x ++ b0 : Word64))
    ((congrArg (fun x : BitVec 48 => (x ++ b1 : BitVec 56)) h2).trans h3))).trans h4

end Halves

/-! ### SHA-512 on halves (45_sha512_rv32.md, the pairing law) -/

section Pairs

variable (h l : Word32)

theorem getLsbD_ror64 (v : Word64) {n i : Nat} (hn : n < 64) (hi : i < 64) :
    (ror64 v n).getLsbD i = v.getLsbD ((i + n) % 64) := by
  rw [ror64, BitVec.getLsbD_rotateRight_of_lt hn]
  by_cases hlt : i < 64 - n
  · rw [decide_eq_true hlt, cond_true, Nat.mod_eq_of_lt (by omega), Nat.add_comm]
  · rw [decide_eq_false hlt, cond_false, decide_eq_true hi, Bool.true_and]
    congr 1
    omega

theorem getLsbD_append_halves (i : Nat) :
    (h ++ l).getLsbD i = if i < 32 then l.getLsbD i else h.getLsbD (i - 32) := BitVec.getLsbD_append

/-- One half of a doubleword shifted right by less than a half, with the low bits of another half shifted in. -/
theorem getLsbD_shift_in {n i : Nat} (hn : n < 32) (hi : i < 32) :
    ((l >>> n) ^^^ (h <<< (32 - n))).getLsbD i =
      if i + n < 32 then l.getLsbD (i + n) else h.getLsbD (i + n - 32) := by
  rw [BitVec.getLsbD_xor, BitVec.getLsbD_ushiftRight, BitVec.getLsbD_shiftLeft, Nat.add_comm n i, decide_eq_true hi]
  split
  · rw [decide_eq_true (show i < 32 - n by omega)]
    simp
  · rw [decide_eq_false (show ¬i < 32 - n by omega), BitVec.getLsbD_of_ge l _ (by omega),
      show i - (32 - n) = i + n - 32 by omega]
    simp

theorem ushiftRight_append {n : Nat} (hn : n < 32) :
    (h ++ l) >>> n = (h >>> n) ++ ((l >>> n) ^^^ (h <<< (32 - n))) := by
  refine BitVec.eq_of_getLsbD_eq fun i hi => ?_
  rw [BitVec.getLsbD_ushiftRight, getLsbD_append_halves, getLsbD_append_halves, Nat.add_comm n i]
  split_ifs with hadd hlt hlt
  · rw [getLsbD_shift_in h l hn hlt, if_pos hadd]
  · omega
  · rw [getLsbD_shift_in h l hn hlt, if_neg hadd]
  · rw [BitVec.getLsbD_ushiftRight]
    congr 1
    omega

theorem ror64_append {n : Nat} (hn : n < 32) : ror64 (h ++ l) n =
    ((h >>> n) ^^^ (l <<< (32 - n))) ++ ((l >>> n) ^^^ (h <<< (32 - n))) := by
  refine BitVec.eq_of_getLsbD_eq fun i hi => ?_
  rw [getLsbD_ror64 _ (by omega) hi, getLsbD_append_halves, getLsbD_append_halves]
  by_cases hlt : i < 32
  · rw [if_pos hlt, getLsbD_shift_in h l hn hlt, Nat.mod_eq_of_lt (by omega)]
  · rw [if_neg hlt, getLsbD_shift_in l h hn (by omega)]
    by_cases hadd : i - 32 + n < 32
    · rw [if_pos hadd, if_neg (by omega)]
      congr 1
      omega
    · rw [if_neg hadd, if_pos (by omega)]
      congr 1
      omega

/-- A rotation by a half exchanges the halves. -/
theorem ror64_append_swap {n : Nat} (hn : n < 32) : ror64 (h ++ l) (32 + n) = ror64 (l ++ h) n := by
  refine BitVec.eq_of_getLsbD_eq fun i hi => ?_
  rw [getLsbD_ror64 _ (by omega) hi, getLsbD_ror64 _ (by omega) hi, getLsbD_append_halves, getLsbD_append_halves]
  by_cases hlt : (i + n) % 64 < 32
  · rw [if_pos hlt, if_neg (by omega)]
    congr 1
    omega
  · rw [if_neg hlt, if_pos (by omega)]
    congr 1
    omega

theorem xor_append_halves (a b c d : Word32) : (a ++ b : Word64) ^^^ (c ++ d) = (a ^^^ c) ++ (b ^^^ d) :=
  BitVec.xor_append

/-! R180 to R183 on a doubleword whose halves are `h` and `l`, against R150 to R155. -/

theorem semSha512sum0_append : semSha512sum0 (h ++ l) = semSha512sum0r h l ++ semSha512sum0r l h := by
  rw [semSha512sum0, ror64_append h l (n := 28) (by decide), ror64_append_swap h l (n := 2) (by decide),
    ror64_append_swap h l (n := 7) (by decide), ror64_append l h (by decide), ror64_append l h (by decide),
    xor_append_halves, xor_append_halves, semSha512sum0r, semSha512sum0r]
  simp only [Nat.reduceSub]
  refine congrArg₂ (fun a b : Word32 => (a ++ b : Word64)) ?_ ?_ <;> grind

theorem semSha512sum1_append : semSha512sum1 (h ++ l) = semSha512sum1r h l ++ semSha512sum1r l h := by
  rw [semSha512sum1, ror64_append h l (n := 14) (by decide), ror64_append h l (n := 18) (by decide),
    ror64_append_swap h l (n := 9) (by decide), ror64_append l h (by decide), xor_append_halves, xor_append_halves,
    semSha512sum1r, semSha512sum1r]
  simp only [Nat.reduceSub]
  refine congrArg₂ (fun a b : Word32 => (a ++ b : Word64)) ?_ ?_ <;> grind

theorem semSha512sig0_append : semSha512sig0 (h ++ l) = semSha512sig0h h l ++ semSha512sig0l l h := by
  rw [semSha512sig0, ror64_append h l (n := 1) (by decide), ror64_append h l (n := 8) (by decide),
    ushiftRight_append h l (by decide), xor_append_halves, xor_append_halves, semSha512sig0h, semSha512sig0l]
  simp only [Nat.reduceSub]
  refine congrArg₂ (fun a b : Word32 => (a ++ b : Word64)) ?_ ?_ <;> grind

theorem semSha512sig1_append : semSha512sig1 (h ++ l) = semSha512sig1h h l ++ semSha512sig1l l h := by
  rw [semSha512sig1, ror64_append h l (n := 19) (by decide), ror64_append_swap h l (n := 29) (by decide),
    ror64_append l h (by decide), ushiftRight_append h l (by decide), xor_append_halves, xor_append_halves,
    semSha512sig1h, semSha512sig1l]
  simp only [Nat.reduceSub]
  refine congrArg₂ (fun a b : Word32 => (a ++ b : Word64)) ?_ ?_ <;> grind

end Pairs

end Sys2Proof.Machine

/-! # Proofs: compositions of instructions (41_sm4.md, 44_aes32.md, 45_sha512_rv32.md, 46_aes64.md) -/

namespace Sys2Proof.Machine

/-! ### Runs of instructions with one destination -/

theorem execAll_cons {i : Instr} {rest : List Instr} {s t : State} (h : exec i s = .next t) :
    execAll (i :: rest) s = execAll rest t := by
  simp only [execAll, h]

/-- The value only matters for a destination other than `x0`. -/
theorem RetiredRun.of_value_eq {n : Nat} {s t : State} {rd : RegIdx} {v w : Word64} (h : RetiredRun n s t rd v)
    (hvalue : rd ≠ 0#5 → v = w) : RetiredRun n s t rd w := by
  obtain ⟨dest, others, pc, base, fault, memory, draws⟩ := h
  refine ⟨dest.trans ?_, others, pc, base, fault, memory, draws⟩
  split
  · rfl
  · exact hvalue ‹_›

theorem Retired.run_one {s t : State} {rd : RegIdx} {v : Word64} (h : Retired s t rd v) (hdraws : t.draws = s.draws) :
    RetiredRun 1 s t rd v :=
  ⟨h.dest, h.others, h.pc, h.base, h.fault, h.memory, hdraws⟩

theorem Retired.run_succ {n : Nat} {s t u : State} {rd : RegIdx} {v w : Word64} (h : Retired s t rd v)
    (hdraws : t.draws = s.draws) (hrun : RetiredRun n t u rd w) : RetiredRun (n + 1) s u rd w where
  dest := hrun.dest
  others r hr := (hrun.others r hr).trans (h.others r hr)
  pc := by
    rw [hrun.pc, h.base, h.pc, Nat.mod_add_mod]
    congr 1
    omega
  base := hrun.base.trans h.base
  fault := hrun.fault.trans h.fault
  memory a := (hrun.memory a).trans (h.memory a)
  draws := hrun.draws.trans hdraws

/-- What the destination holds after accumulating instructions, each with its `rs2` and byte select: every instruction
reads the accumulator as the one before left it, also where its `rs2` is the accumulator. -/
def accumulated (sem : Word32 → Word32 → BitVec 2 → Word32) (rd : RegIdx) (s : State) :
    List (RegIdx × BitVec 2) → Word32 → Word32
  | [], a => a
  | (rs2, bs) :: rest, a => accumulated sem rd s rest (sem a (if rs2 = rd then a else s.src32 rs2) bs)

/-- The sources that an instruction with destination `rd` leaves alone are the same for those after it. -/
theorem accumulated_of_retired {sem : Word32 → Word32 → BitVec 2 → Word32} {s t : State} {rd : RegIdx} {v : Word64}
    (h : Retired s t rd v) (ops : List (RegIdx × BitVec 2)) (a : Word32) :
    accumulated sem rd t ops a = accumulated sem rd s ops a := by
  induction ops generalizing a with
  | nil => rfl
  | cons op rest ih =>
    obtain ⟨rs2, bs⟩ := op
    by_cases hr : rs2 = rd
    · simp only [accumulated, if_pos hr, ih]
    · simp only [accumulated, if_neg hr, ih, State.src32, h.others rs2 hr]

/-- An instruction reads its `rs2` before it writes its destination, whether they are the same register or not. -/
theorem ite_src32_eq (s : State) (rd rs2 : RegIdx) :
    (if rs2 = rd then s.src32 rd else s.src32 rs2) = s.src32 rs2 := by
  split
  · rw [‹rs2 = rd›]
  · rfl

/-- One or more accumulating instructions on their base run to their end. -/
theorem execAll_accumulating {sem : Word32 → Word32 → BitVec 2 → Word32}
    {mk : RegIdx → RegIdx → RegIdx → BitVec 2 → Instr} {b : Base} {rd : RegIdx}
    (hexec : ∀ (s : State) (rs2 : RegIdx) (bs : BitVec 2), s.base = b →
      exec (mk rd rd rs2 bs) s = .next (s.retire32 rd (sem (s.src32 rd) (s.src32 rs2) bs)))
    (op : RegIdx × BitVec 2) (rest : List (RegIdx × BitVec 2)) (s : State) (hbase : s.base = b) :
    ∃ t, execAll ((op :: rest).map fun x => mk rd rd x.1 x.2) s = .next t ∧
      RetiredRun (rest.length + 1) s t rd (sextXlen s.base (accumulated sem rd s (op :: rest) (s.src32 rd))) := by
  induction rest generalizing op s with
  | nil =>
    obtain ⟨rs2, bs⟩ := op
    refine ⟨_, (execAll_cons (hexec s rs2 bs hbase)).trans rfl, ?_⟩
    simp only [accumulated, ite_src32_eq]
    exact (s.retire32_spec rd _).run_one (s.retire_draws ..)
  | cons op' rest ih =>
    obtain ⟨rs2, bs⟩ := op
    have hret := s.retire32_spec rd (sem (s.src32 rd) (s.src32 rs2) bs)
    obtain ⟨u, hrest, hrun⟩ := ih op' _ (hret.base.trans hbase)
    refine ⟨u, (execAll_cons (hexec s rs2 bs hbase)).trans hrest,
      (hret.run_succ (s.retire_draws ..) hrun).of_value_eq fun hrd => ?_⟩
    have hacc : (s.retire32 rd (sem (s.src32 rd) (s.src32 rs2) bs)).src32 rd = sem (s.src32 rd) (s.src32 rs2) bs := by
      rw [State.src32, hret.dest, if_neg hrd, lo32_sextXlen]
    rw [hret.base, hacc, accumulated_of_retired hret]
    conv_rhs => rw [accumulated, ite_src32_eq]

/-- An accumulating instruction on its base, with `rs1 = rd`. -/
theorem exec_of_tied_self {i : Instr} {s : State} {z : Word32} (hon : i.onBase s.base = true)
    (htied : i.fieldsLegal = (i.rd == i.rd)) (hexec : exec i s = ifLegal i s (s.retire32 i.rd z)) :
    exec i s = .next (s.retire32 i.rd z) := by
  rw [hexec, ifLegal, Instr.wellFormed, hon, htied, beq_self_eq_true]
  rfl

/-! ### Four accumulating instructions compute a column map

`F` is what they compute of a column, `g` what one of them computes of one byte and `S` the S-box. -/

section FourSteps

variable {F : Word32 → Word32} {g : Byte → Word32} {S : Byte → Byte} {sem : Word32 → Word32 → BitVec 2 → Word32}
  (hF : ColumnMap F) (hsem : ∀ a b bs, sem a b bs = accumulate a (g (S (selectByte b bs))) bs)
include hF hsem

theorem sem_four_steps (hg : ∀ y, F (y.setWidth 32) = g y) (a b0 b1 b2 b3 : Word32) :
    sem (sem (sem (sem a b0 0#2) b1 1#2) b2 2#2) b3 3#2 =
      a ^^^ F (S (byte32 b3 3) ++ S (byte32 b2 2) ++ S (byte32 b1 1) ++ S (byte32 b0 0)) := by
  simp only [hsem]
  exact hF.accumulate_four hg a _ _ _ _

theorem columnBy_eq (hg : ∀ y, F (y.setWidth 32) = g y) (b0 b1 b2 b3 : Word32) :
    columnBy sem b0 b1 b2 b3 = F (S (byte32 b3 3) ++ S (byte32 b2 2) ++ S (byte32 b1 1) ++ S (byte32 b0 0)) :=
  (sem_four_steps hF hsem hg 0#32 b0 b1 b2 b3).trans BitVec.zero_xor

theorem accumulated_column (hg : ∀ y, F (y.setWidth 32) = g y) (s : State) {rd r0 r1 r2 r3 : RegIdx} (h0 : r0 ≠ rd)
    (h1 : r1 ≠ rd) (h2 : r2 ≠ rd) (h3 : r3 ≠ rd) (a : Word32) :
    accumulated sem rd s [(r0, 0#2), (r1, 1#2), (r2, 2#2), (r3, 3#2)] a =
      a ^^^ F (S (byte32 (s.src32 r3) 3) ++ S (byte32 (s.src32 r2) 2) ++ S (byte32 (s.src32 r1) 1) ++
        S (byte32 (s.src32 r0) 0)) := by
  simp only [accumulated, if_neg h0, if_neg h1, if_neg h2, if_neg h3]
  exact sem_four_steps hF hsem hg a _ _ _ _

/-- SM4, whose instructions work on byte-reversed words. -/
theorem accumulated_byte_reversed (hg : ∀ y, bswap32 (F (bswap32 (y.setWidth 32))) = g y) (s : State) (rd rs2 : RegIdx)
    (a : Word32) :
    accumulated sem rd s [(rs2, 0#2), (rs2, 1#2), (rs2, 2#2), (rs2, 3#2)] a =
      if rs2 = rd then selfBy sem a else a ^^^ bswap32 (F (onBytes4 S (bswap32 (s.src32 rs2)))) := by
  by_cases hr : rs2 = rd
  · simp only [accumulated, if_pos hr, selfBy]
  · rw [accumulated_column hF.conj_bswap32 hsem hg s hr hr hr hr, if_neg hr, ← bswap32_onBytes4]
    rfl

end FourSteps

/-! ### The columns of the RV64 AES instructions -/

/-- The columns that ShiftRows takes the bytes of the low half from. -/
theorem aesShiftrowsFwd_append (c0 c1 c2 c3 : Word32) : aesShiftrowsFwd (c3 ++ c2) (c1 ++ c0) =
    (byte32 c0 3 ++ byte32 c3 2 ++ byte32 c2 1 ++ byte32 c1 0) ++
      (byte32 c3 3 ++ byte32 c2 2 ++ byte32 c1 1 ++ byte32 c0 0) := by
  rw [← append_four_bytes]
  simp only [aesShiftrowsFwd, byte64_append_lo _ _ (show 0 < 4 by decide), byte64_append_lo _ _ (show 1 < 4 by decide),
    byte64_append_lo _ _ (show 2 < 4 by decide), byte64_append_lo _ _ (show 3 < 4 by decide),
    byte64_append_hi _ _ 0, byte64_append_hi _ _ 1, byte64_append_hi _ _ 2, byte64_append_hi _ _ 3]

/-- The same for InvShiftRows. -/
theorem aesShiftrowsInv_append (c0 c1 c2 c3 : Word32) : aesShiftrowsInv (c3 ++ c2) (c1 ++ c0) =
    (byte32 c2 3 ++ byte32 c3 2 ++ byte32 c0 1 ++ byte32 c1 0) ++
      (byte32 c1 3 ++ byte32 c2 2 ++ byte32 c3 1 ++ byte32 c0 0) := by
  rw [← append_four_bytes]
  simp only [aesShiftrowsInv, byte64_append_lo _ _ (show 0 < 4 by decide), byte64_append_lo _ _ (show 1 < 4 by decide),
    byte64_append_lo _ _ (show 2 < 4 by decide), byte64_append_lo _ _ (show 3 < 4 by decide),
    byte64_append_hi _ _ 0, byte64_append_hi _ _ 1, byte64_append_hi _ _ 2, byte64_append_hi _ _ 3]

theorem onBytes4_append (f : Byte → Byte) (b0 b1 b2 b3 : Byte) :
    onBytes4 f (b3 ++ b2 ++ b1 ++ b0) = f b3 ++ f b2 ++ f b1 ++ f b0 := by
  simp [onBytes4]

theorem onColumns_inv_fwd (v : Word64) : onColumns aesMixcolumnInv (onColumns aesMixcolumnFwd v) = v := by
  rw [← append_halves v, onColumns_append, onColumns_append, aesMixcolumnInv_aesMixcolumnFwd,
    aesMixcolumnInv_aesMixcolumnFwd]

/-! ### The halves of an RV64 result -/

/-- A pair of RV32 instructions leaves in `rd` the halves of what an RV64 instruction leaves there. -/
theorem pair_of_completes {il ih i : Instr} {s q : State} {rd : RegIdx} {zl zh : Word32} {v : Word64} (hrd : rd ≠ 0#5)
    (hrdl : il.rd = rd) (hrdh : ih.rd = rd) (hrdq : i.rd = rd) (hl : Completes il s (zl.setWidth 64))
    (hh : Completes ih s (zh.setWidth 64)) (hq : Completes i q v) (hv : v = zh ++ zl) :
    ∃ tl th u : State, exec il s = .next tl ∧ exec ih s = .next th ∧ exec i q = .next u ∧
      u.readX rd = lo32 (th.readX rd) ++ lo32 (tl.readX rd) := by
  obtain ⟨tl, hexecl, hretl, -⟩ := hl
  obtain ⟨th, hexech, hreth, -⟩ := hh
  obtain ⟨u, hexecq, hretq, -⟩ := hq
  refine ⟨tl, th, u, hexecl, hexech, hexecq, ?_⟩
  have htl := hretl.dest
  have hth := hreth.dest
  have hu := hretq.dest
  rw [hrdl, if_neg hrd, ← sextXlen_rv32] at htl
  rw [hrdh, if_neg hrd, ← sextXlen_rv32] at hth
  rw [hrdq, if_neg hrd] at hu
  rw [htl, hth, hu, hv, lo32_sextXlen, lo32_sextXlen]

end Sys2Proof.Machine

/-! ### The statements -/

namespace Sys2Proof.Proofs

open Sys2Proof Sys2Proof.Machine

/-- Settles O21. Both functions are circulant matrices over the field, and the product of the two is the identity. -/
theorem mixColumnLaws : Obligations.MixColumnLaws := by
  unfold Obligations.MixColumnLaws
  exact ⟨aesMixcolumnInv_aesMixcolumnFwd,
    fun v w => ⟨circulant_aesMixcolumnFwd.columnMap.map_xor v w, circulant_aesMixcolumnInv.columnMap.map_xor v w⟩,
    fun y => ⟨aesMixcolumnFwd_setWidth y, aesMixcolumnInv_setWidth y⟩⟩

/-- Settles O22. `aes64im` undoes the MixColumns that `aes64esm` applies last; `x0` reads 0 after either. -/
theorem invMixColumnsUndoesMiddleRound : Obligations.InvMixColumnsUndoesMiddleRound := by
  unfold Obligations.InvMixColumnsUndoesMiddleRound
  intro s rd rs1 rs2 hbase
  obtain ⟨t, hexect, hrett, -⟩ := completes_of_retire_rv64 hbase rfl (exec_aes64esm rd rs1 rs2 s)
  obtain ⟨u, hexecu, hretu, -⟩ := completes_of_retire_rv64 (hrett.base.trans hbase) rfl (exec_aes64im rd rd t)
  obtain ⟨v, hexecv, hretv, -⟩ := completes_of_retire_rv64 hbase rfl (exec_aes64es rd rs1 rs2 s)
  refine ⟨t, u, v, hexect, hexecu, hexecv, ?_⟩
  by_cases hrd : rd = 0#5
  · rw [hrd, u.readX_zero, v.readX_zero]
  · have ht : t.readX rd = _ := hrett.dest.trans (if_neg hrd)
    have hu : u.readX rd = _ := hretu.dest.trans (if_neg hrd)
    have hv : v.readX rd = _ := hretv.dest.trans (if_neg hrd)
    rw [hu, hv, ht, semAes64im, semAes64esm, onColumns_inv_fwd, semAes64es]

/-- Settles O23. Each RV64 function on a doubleword is the pair of RV32 functions on its halves. -/
theorem sha512HalvesPair : Obligations.Sha512HalvesPair := by
  unfold Obligations.Sha512HalvesPair
  intro s q rd lo hi r hs hq hrd hhalves
  obtain ⟨-, sum0l, sum1l, sig0l, -, sig1l, -⟩ := sha512Rv32Results s rd lo hi _ _ hs rfl rfl
  obtain ⟨-, sum0h, sum1h, -, sig0h, -, sig1h⟩ := sha512Rv32Results s rd hi lo _ _ hs rfl rfl
  obtain ⟨-, -, -, -, sum0, sum1, sig0, sig1⟩ := sha512Rv64Results q rd r _ hq rfl
  rw [hhalves] at sum0 sum1 sig0 sig1
  exact ⟨pair_of_completes hrd rfl rfl rfl sum0l sum0h sum0 (semSha512sum0_append _ _),
    pair_of_completes hrd rfl rfl rfl sum1l sum1h sum1 (semSha512sum1_append _ _),
    pair_of_completes hrd rfl rfl rfl sig0l sig0h sig0 (semSha512sig0_append _ _),
    pair_of_completes hrd rfl rfl rfl sig1l sig1h sig1 (semSha512sig1_append _ _)⟩

/-- Settles O24. `L` and `L'` are column maps, of which each of the four instructions computes the part of one byte. -/
theorem fourSm4StepsAreOneRound : Obligations.FourSm4StepsAreOneRound := by
  unfold Obligations.FourSm4StepsAreOneRound
  intro s rd rs2
  obtain ⟨t, hexect, hrunt⟩ := execAll_accumulating (mk := .sm4ed) (b := s.base) (rd := rd)
    (fun s rs2 bs _ => exec_of_tied_self rfl rfl (exec_sm4ed rd rd rs2 bs s))
    (rs2, 0#2) [(rs2, 1#2), (rs2, 2#2), (rs2, 3#2)] s rfl
  obtain ⟨u, hexecu, hrunu⟩ := execAll_accumulating (mk := .sm4ks) (b := s.base) (rd := rd)
    (fun s rs2 bs _ => exec_of_tied_self rfl rfl (exec_sm4ks rd rd rs2 bs s))
    (rs2, 0#2) [(rs2, 1#2), (rs2, 2#2), (rs2, 3#2)] s rfl
  rw [accumulated_byte_reversed (sem := semSm4ed) columnMap_sm4L (fun _ _ _ => rfl)
    bswap32_sm4L_setWidth] at hrunt
  rw [accumulated_byte_reversed (sem := semSm4ks) columnMap_sm4LPrime (fun _ _ _ => rfl)
    bswap32_sm4LPrime_setWidth] at hrunu
  exact ⟨⟨t, hexect, hrunt⟩, ⟨u, hexecu, hrunu⟩⟩

/-- Settles O25. MixColumns and InvMixColumns are column maps, of which each of the four instructions computes the part
of one substituted byte. -/
theorem fourAes32StepsAreOneColumn : Obligations.FourAes32StepsAreOneColumn := by
  unfold Obligations.FourAes32StepsAreOneColumn
  intro s rd r0 r1 r2 r3 hbase h0 h1 h2 h3
  obtain ⟨t, hexect, hrunt⟩ := execAll_accumulating (mk := .aes32esmi) (b := .rv32) (rd := rd)
    (fun s rs2 bs hb => exec_of_tied_self (hb ▸ rfl) rfl (exec_aes32esmi rd rd rs2 bs s))
    (r0, 0#2) [(r1, 1#2), (r2, 2#2), (r3, 3#2)] s hbase
  obtain ⟨u, hexecu, hrunu⟩ := execAll_accumulating (mk := .aes32dsmi) (b := .rv32) (rd := rd)
    (fun s rs2 bs hb => exec_of_tied_self (hb ▸ rfl) rfl (exec_aes32dsmi rd rd rs2 bs s))
    (r0, 0#2) [(r1, 1#2), (r2, 2#2), (r3, 3#2)] s hbase
  rw [hbase, sextXlen_rv32, accumulated_column (sem := semAes32esmi) circulant_aesMixcolumnFwd.columnMap
    (fun _ _ _ => rfl) aesMixcolumnFwd_setWidth s h0 h1 h2 h3] at hrunt
  rw [hbase, sextXlen_rv32, accumulated_column (sem := semAes32dsmi) circulant_aesMixcolumnInv.columnMap
    (fun _ _ _ => rfl) aesMixcolumnInv_setWidth s h0 h1 h2 h3] at hrunu
  exact ⟨⟨t, hexect, hrunt⟩, ⟨u, hexecu, hrunu⟩⟩

/-- Settles O26. Both designs apply the same column map to the same substituted bytes, which ShiftRows takes from the
same columns. -/
theorem aes64RoundsEqualAes32Columns : Obligations.Aes64RoundsEqualAes32Columns := by
  unfold Obligations.Aes64RoundsEqualAes32Columns
  intro c0 c1 c2 c3
  have esmi := columnBy_eq (sem := semAes32esmi) circulant_aesMixcolumnFwd.columnMap (fun _ _ _ => rfl)
    aesMixcolumnFwd_setWidth
  have esi := columnBy_eq (sem := semAes32esi) (S := aesSboxFwd) columnMap_id (fun _ _ _ => rfl) (fun _ => rfl)
  have dsmi := columnBy_eq (sem := semAes32dsmi) circulant_aesMixcolumnInv.columnMap (fun _ _ _ => rfl)
    aesMixcolumnInv_setWidth
  have dsi := columnBy_eq (sem := semAes32dsi) (S := aesSboxInv) columnMap_id (fun _ _ _ => rfl) (fun _ => rfl)
  refine ⟨?esm, ?es, ?dsm, ?ds⟩
  case esm => rw [semAes64esm, aesSubbytes8Fwd, aesShiftrowsFwd_append, onBytes8_append, onColumns_append,
    onBytes4_append, onBytes4_append, esmi, esmi]
  case es => rw [semAes64es, aesSubbytes8Fwd, aesShiftrowsFwd_append, onBytes8_append, onBytes4_append,
    onBytes4_append, esi, esi, id, id]
  case dsm => rw [semAes64dsm, aesSubbytes8Inv, aesShiftrowsInv_append, onBytes8_append, onColumns_append,
    onBytes4_append, onBytes4_append, dsmi, dsmi]
  case ds => rw [semAes64ds, aesSubbytes8Inv, aesShiftrowsInv_append, onBytes8_append, onBytes4_append,
    onBytes4_append, dsi, dsi, id, id]

end Sys2Proof.Proofs
